-- ==== Sys2Proof/Word.lean ====
section
/-!
DEFINITION. The widths of the machine's quantities (00_scope.md R8). The HFE has no signed quantity and no
general arithmetic of its own (R9): helpers with a meaning of their own stand in Machine/Operands.lean.
-/

namespace Sys2Proof

/-- A wire byte, a buffer byte (R8: "Every wire byte is 8 bits"). -/
abbrev Byte := BitVec 8

/-- A height or a width (R8: "unsigned 16-bit pixel dimensions"). -/
abbrev Half := BitVec 16

/-- A word of the host register bus, a CSR, a counter (R8: 32 bits). -/
abbrev Word := BitVec 32

end Sys2Proof
end

