-- ==== Sys2Proof/Syntax.lean ====
section
/-!
DEFINITION. The codes that select what the HFE does, one constructor for each row of spec/opcode_table.json, and the
words they are written as. The HFE fetches no program (20_memory.md R73): a command word comes from the host's write to
CMD, a marker and a header from the receive stream, a direction or format code from a header field
(30_encoding.md R75).
-/

namespace Sys2Proof

/-- One constructor per row of spec/opcode_table.json. -/
inductive Instr where
  /-- POLL, command word 1 (30_encoding.md R76). -/
  | poll
  /-- READ, command word 2. -/
  | read
  /-- WRITE, command word 3. -/
  | write
  /-- CANCEL, command word 4. -/
  | cancel
  /-- SYNC, the marker 'S','T' (R81). -/
  | sync
  /-- HDR, a frame header with its four fields (R78). The fields hold any value: a reserved code or a zero dimension
  has an effect of its own (R90). -/
  | hdr (dir : Byte) (height width : Half) (fmt : Byte)
  /-- The direction byte 1 (R82). -/
  | dirDeviceWrites
  /-- The direction byte 2 (R82). -/
  | dirDeviceReads
  /-- The format code 1 (R83). -/
  | fmtGrayscale
  /-- The format code 2 (R83). -/
  | fmtRGB565
  /-- The format code 3 (R83). -/
  | fmtRGB888
  deriving DecidableEq, Repr

/-- An encoded word together with the place it is read from: the same byte is a direction at frame offset 2 and a format
at frame offset 7 (R82, R83). -/
inductive CodeWord where
  /-- The 32 bits of a 4-byte write to CMD (R76). -/
  | command (w : BitVec 32)
  /-- Two received bytes, the earlier one in the high byte (R78). -/
  | marker (w : BitVec 16)
  /-- Eight received bytes, the earliest one in the highest byte (R78). -/
  | header (w : BitVec 64)
  /-- The byte at frame offset 2 (R82). -/
  | direction (b : BitVec 8)
  /-- The byte at frame offset 7, or REQ_FMT widened (R83). -/
  | format (b : BitVec 8)
  deriving DecidableEq, Repr

/-- Why a word is no instruction. None of these stops the machine: each has the effect R90 gives it. -/
inductive DecodeError where
  /-- A command word that is not 1, 2, 3 or 4 (R76): rejected with CMDREJ (43_transfer_engine.md R146). -/
  | reservedCommand
  /-- Two bytes that are not the marker: noise (40_frame_scanner.md R97). -/
  | notMarker
  /-- Eight bytes that do not begin with the marker. -/
  | noHeader
  /-- A direction byte other than 1 and 2 (R82): UnknownDirection once the header is complete (40_frame_scanner.md
  R105, R106). -/
  | unknownDirection
  /-- A format code other than 1, 2 and 3 (R83). -/
  | unknownFormat
  /-- A byte that is part of a longer word whose last byte has not come. -/
  | partialWord
  deriving DecidableEq, Repr

end Sys2Proof
end

