-- ==== Sys2Proof/WellFormed.lean ====
section
/-!
DEFINITION. Which instructions are well formed: a header is when it is a valid header (30_encoding.md R82, R83, R85). An
ill-formed header is still decoded and has an effect, the Resync of 40_frame_scanner.md R105.
-/

namespace Sys2Proof

/-- R82: direction 1 or 2. -/
def directionLegal (dir : Byte) : Bool := dir == 1 || dir == 2

/-- R85: height and width in 1..65535. -/
def dimensionsLegal (height width : Half) : Bool := height != 0 && width != 0

/-- R83: format 1, 2 or 3. -/
def formatLegal (fmt : Byte) : Bool := fmt == 1 || fmt == 2 || fmt == 3

/-- The checks of R105, all of them. -/
def Instr.wellFormed : Instr → Bool
  | .poll => true
  | .read => true
  | .write => true
  | .cancel => true
  | .sync => true
  | .hdr dir height width fmt => directionLegal dir && dimensionsLegal height width && formatLegal fmt
  | .dirDeviceWrites => true
  | .dirDeviceReads => true
  | .fmtGrayscale => true
  | .fmtRGB565 => true
  | .fmtRGB888 => true

end Sys2Proof
end

