-- ==== Sys2Proof/Decode.lean ====
section
/-!
DEFINITION. The decoder, total on every word, and the encoder after it (30_encoding.md).
-/

namespace Sys2Proof

/-- A command word, matched whole: "match = word, mask = 0xFFFF_FFFF" (R76). -/
def decodeCommand (w : BitVec 32) : Except DecodeError Instr :=
  if w = 0x00000001 then .ok .poll
  else if w = 0x00000002 then .ok .read
  else if w = 0x00000003 then .ok .write
  else if w = 0x00000004 then .ok .cancel
  else .error .reservedCommand

/-- The marker bytes M0 M1 = 0x53 0x54 (R81). -/
def decodeMarker (w : BitVec 16) : Except DecodeError Instr :=
  if w = 0x5354 then .ok .sync else .error .notMarker

/-- The 8-byte header: marker, direction, height, width, format, each most significant byte first (R78, R84). The
fields are taken as they come, for they are checked only on a complete header (40_frame_scanner.md R106). -/
def decodeHeader (w : BitVec 64) : Except DecodeError Instr :=
  if w.extractLsb' 48 16 = 0x5354 then
    .ok (.hdr (w.extractLsb' 40 8) (w.extractLsb' 24 16) (w.extractLsb' 8 16) (w.extractLsb' 0 8))
  else .error .noHeader

/-- The direction byte (R82). -/
def decodeDirection (b : Byte) : Except DecodeError Instr :=
  if b = 0x01 then .ok .dirDeviceWrites
  else if b = 0x02 then .ok .dirDeviceReads
  else .error .unknownDirection

/-- The format code (R83). -/
def decodeFormat (b : Byte) : Except DecodeError Instr :=
  if b = 0x01 then .ok .fmtGrayscale
  else if b = 0x02 then .ok .fmtRGB565
  else if b = 0x03 then .ok .fmtRGB888
  else .error .unknownFormat

/-- Decoding, total: every word is an instruction or is rejected by name (R90). -/
def decode : CodeWord → Except DecodeError Instr
  | .command w => decodeCommand w
  | .marker w => decodeMarker w
  | .header w => decodeHeader w
  | .direction b => decodeDirection b
  | .format b => decodeFormat b

/-- The word an instruction is written as (R76, R78, R81 to R84). -/
def encode : Instr → CodeWord
  | .poll => .command 0x00000001
  | .read => .command 0x00000002
  | .write => .command 0x00000003
  | .cancel => .command 0x00000004
  | .sync => .marker 0x5354
  | .hdr dir height width fmt => .header (0x5354#16 ++ dir ++ height ++ width ++ fmt)
  | .dirDeviceWrites => .direction 0x01
  | .dirDeviceReads => .direction 0x02
  | .fmtGrayscale => .format 0x01
  | .fmtRGB565 => .format 0x02
  | .fmtRGB888 => .format 0x03

/-- The most significant byte of a 16-bit field, the one sent first (20_memory.md R61). -/
def highByte (h : Half) : Byte := h.extractLsb' 8 8

/-- The least significant byte of a 16-bit field. -/
def lowByte (h : Half) : Byte := h.extractLsb' 0 8

/-- EncodeHeader (R95): the eight bytes of a header in wire order. -/
def encodeHeader (dir : Byte) (height width : Half) (fmt : Byte) : List Byte :=
  [0x53, 0x54, dir, highByte height, lowByte height, highByte width, lowByte width, fmt]

/-- A row's word numbered as spec/opcode_table.json numbers it. The table gives each row one number whose highest byte
is the first on the wire (its HDR row: "bit 63 is the first bit of the first wire byte"), so the number is the code word
itself. An 8-bit word is read where the machine meets its first 8-bit code, at the direction byte; the code 3, which is no
direction, is read as a format (DESIGN CHOICE, notes/assumptions/10.md). -/
def decodeTableWord (nbits w : Nat) : Option Instr :=
  if 2 ^ nbits ≤ w then none
  else match nbits with
    | 32 => (decode (.command (BitVec.ofNat 32 w))).toOption
    | 16 => (decode (.marker (BitVec.ofNat 16 w))).toOption
    | 64 => (decode (.header (BitVec.ofNat 64 w))).toOption
    | 8 =>
      match decode (.direction (BitVec.ofNat 8 w)) with
      | .ok i => some i
      | .error _ => (decode (.format (BitVec.ofNat 8 w))).toOption
    | _ => none

end Sys2Proof
end

