-- ==== Sys2Proof/Config.lean ====
section
/-!
DEFINITION. What an implementation or its environment fixes and the spec leaves open. Every value that is open is an
opaque constant without a body: nothing in Lean can evaluate it, so a claim holds whatever it is.
-/

namespace Sys2Proof

/-- The two pixel buffers (20_memory.md R53). -/
inductive BufId where
  /-- SRC_BUF: written by the host, read by the Pixel Encoder. -/
  | src
  /-- DST_BUF: written by the Pixel Decoder, read by the host. -/
  | dst
  deriving DecidableEq, Repr

/-- What the environment gives the HFE in one clock cycle: the input ports of 10_state.md R17 but `clk`, which is the
step itself. `encDraw` is no port: it is this cycle's draw of enc_rdy, the encoder latency T_ENC (10_state.md R30,
00_scope.md R7; notes/assumptions/6.md). -/
structure CycleIn where
  /-- `rst`, synchronous and active high. -/
  rst : Bool
  /-- `link_up`: the Byte Source is open. -/
  linkUp : Bool
  /-- `rx_valid`: the byte source offers `rx_data`. -/
  rxValid : Bool
  /-- `rx_data`. -/
  rxData : Byte
  /-- `rx_timeout`: the per-read timeout of the current read unit has elapsed. -/
  rxTimeout : Bool
  /-- `tx_ready`: the byte sink takes the offered byte. -/
  txReady : Bool
  /-- `tx_fail`: the byte sink reports a failed write. -/
  txFail : Bool
  /-- `bus_en`: a host access happens. -/
  busEn : Bool
  /-- `bus_we`: the access is a write. -/
  busWe : Bool
  /-- `bus_w32`: the access has 4 bytes, else 1. -/
  busW32 : Bool
  /-- `bus_addr`. -/
  busAddr : Word
  /-- `bus_wdata`. -/
  busWdata : Word
  /-- The draw of enc_rdy, used only where 10_state.md R30 draws. -/
  encDraw : Bool
  deriving DecidableEq, Repr, Inhabited

/-- A cycle in which every input is 0. -/
def CycleIn.quiet : CycleIn where
  rst := false
  linkUp := false
  rxValid := false
  rxData := 0
  rxTimeout := false
  txReady := false
  txFail := false
  busEn := false
  busWe := false
  busW32 := false
  busAddr := 0
  busWdata := 0
  encDraw := false

/-- The inputs of a cycle that the state's list does not give, by the cycle's number: a free value
(93_implementation_defined.md I1, I3, I11; notes/assumptions/2.md). -/
opaque Config.freeInput : Nat → CycleIn

/-- One less than BUF_BYTES (00_scope.md R7: 1 <= BUF_BYTES <= 2^24), a free value (notes/assumptions/3.md). -/
opaque Config.bufBytesLessOne : Fin 16777216

/-- BUF_BYTES of the instance. -/
def Config.bufBytes : Nat := Config.bufBytesLessOne.val + 1

/-- What a buffer byte that nothing has written reads as: a free value (10_state.md R52: "unspecified (not reset); any
value"; notes/assumptions/4.md). -/
opaque Config.unwritten : BufId → Nat → Byte

end Sys2Proof
end

