-- ==== Sys2Proof/Machine/State.lean ====
section
/-!
DEFINITION. The state of the HW3 Frame Engine as plain data: every register of 10_state.md, the two buffers of
20_memory.md R53, the interrupt masks of 60_exceptions.md R176, and the model's own fields for what stands at the ports.
-/

namespace Sys2Proof.Machine

/-- STATE (10_state.md R24: "a model may take STATE as a 6-valued type"). -/
inductive EngineState where
  /-- 0, the source's `Idle`. -/
  | idle
  /-- 1, `AwaitingHeader` with the Frame Scanner running. -/
  | scan
  /-- 2, `AwaitingHeader` with the header fields being read. -/
  | hdr
  /-- 3, `HeaderDecoded`. -/
  | hdrDecoded
  /-- 4, `Reading`. -/
  | reading
  /-- 5, `Writing`. -/
  | writing
  deriving DecidableEq, Repr

/-- ERR_CODE (60_exceptions.md R164: "A model may take ERR_CODE as an 11-valued type"). -/
inductive ErrCode where
  | none
  | incompleteHeader
  | unknownDirection
  | unknownFormat
  | zeroDimension
  | sizeOverflow
  | shortRead
  | shortWrite
  | bufOverflow
  | linkFatal
  | cancelled
  deriving DecidableEq, Repr

/-- The interrupt sources, one per bit of IRQ_STATUS (10_state.md R45, 60_exceptions.md R175). -/
inductive IrqBit where
  | hdr
  | done
  | cycfail
  | resync
  | cancel
  | linkf
  | cmdrej
  deriving DecidableEq, Repr

/-- The error entries of 60_exceptions.md R170 to R173, the HFE's counterpart of taking an exception (R174). -/
inductive ErrorEntry where
  /-- Resync(code), R170. -/
  | resync (code : ErrCode)
  /-- CycleFail(code), R171. -/
  | cycleFail (code : ErrCode)
  /-- LinkFatal(), R172. -/
  | linkFatal
  /-- Cancelled(), R173. -/
  | cancelled
  deriving DecidableEq, Repr

/-- HDR_RAW[0..5] (10_state.md R26): the header byte at frame offset k+2 is `b<k>`. -/
structure HdrRaw where
  b0 : Byte
  b1 : Byte
  b2 : Byte
  b3 : Byte
  b4 : Byte
  b5 : Byte
  deriving DecidableEq, Repr

/-- A buffer's written bytes by index, the indices strictly rising. A byte that is not listed has never been written:
it has no value here and reads as `Config.unwritten` (notes/assumptions/4.md). -/
abbrev Memory := List Host.Cell

/-- The output ports of one clock cycle (10_state.md R17, R19 to R22). -/
structure PortOut where
  /-- `rx_ready`. -/
  rxReady : Bool
  /-- `tx_valid` with its `tx_data`: `some b` when `tx_valid` is 1. With `tx_valid` 0 the data is a don't-care (R19) and
  is not represented (notes/assumptions/7.md). -/
  tx : Option Byte
  /-- `rd_unit_len`. -/
  rdUnitLen : Word
  /-- `rd_unit_rem`. -/
  rdUnitRem : Word
  /-- `irq`. -/
  irq : Bool
  /-- `bus_rdata`. -/
  busRdata : Word
  deriving DecidableEq, Repr

/-- The whole machine. The fields up to `bufBytes` are the spec's; the rest are the model's own. -/
structure State where
  /-- STATE, R24. -/
  state : EngineState
  /-- SEEN_M0, R25. -/
  seenM0 : Bool
  /-- HDR_IDX, R26: "Value 6 and up is never held". -/
  hdrIdx : Fin 6
  /-- HDR_RAW[0..5], R26. -/
  hdrRaw : HdrRaw
  /-- REQ_DIR, R27. -/
  reqDir : BitVec 2
  /-- REQ_H, R27. -/
  reqH : Half
  /-- REQ_W, R27. -/
  reqW : Half
  /-- REQ_FMT, R27. -/
  reqFmt : BitVec 2
  /-- PAYLOAD_SIZE, R27. -/
  payloadSize : Word
  /-- REQ_VALID, R27. -/
  reqValid : Bool
  /-- XFER_COUNT, R28. -/
  xferCount : Word
  /-- PEND, R29. -/
  pend : Byte
  /-- enc_rdy, R30. -/
  encRdy : Bool
  /-- DST_H, R31. -/
  dstH : Half
  /-- DST_W, R31. -/
  dstW : Half
  /-- DST_C, R31. -/
  dstC : BitVec 2
  /-- SRC_H, R32. -/
  srcH : Half
  /-- SRC_W, R32. -/
  srcW : Half
  /-- SRC_C, R32. -/
  srcC : BitVec 2
  /-- ERR_CODE, R33. -/
  errCode : ErrCode
  /-- RESYNC_COUNT, R34. -/
  resyncCount : Word
  /-- SCAN_COUNT, R34. -/
  scanCount : Word
  /-- IRQ_STATUS, R35. -/
  irqStatus : BitVec 7
  /-- IRQ_ENABLE, R35. -/
  irqEnable : BitVec 7
  /-- LINK_Q, R36. -/
  linkQ : Bool
  /-- The cycle's set mask (60_exceptions.md R176), 0 between cycles. -/
  irqSet : BitVec 7
  /-- The cycle's clear mask (60_exceptions.md R176), 0 between cycles. -/
  irqClear : BitVec 7
  /-- SRC_BUF (20_memory.md R53). -/
  srcBuf : Memory
  /-- DST_BUF (20_memory.md R53). -/
  dstBuf : Memory
  /-- BUF_BYTES, the instance's parameter, read at offset 0x44 (R48): no step changes it. -/
  bufBytes : Nat
  /-- What the environment drives in the coming cycles, oldest first (notes/assumptions/1.md). -/
  inputs : List CycleIn
  /-- The number of cycles so far; a cycle that `inputs` does not give has the inputs `Config.freeInput cycle`
  (notes/assumptions/2.md). -/
  cycle : Nat
  /-- The inputs sampled at the latest edge: this cycle's inputs while a cycle runs (notes/assumptions/5.md). -/
  inp : CycleIn
  /-- The outputs of the latest cycle (notes/assumptions/5.md). -/
  out : PortOut
  /-- The bytes the sink has taken, oldest first: the transmit stream (20_memory.md R57; notes/assumptions/5.md). -/
  txLog : List Byte
  deriving DecidableEq, Repr

/-- No constructor: nothing the spec describes stops the HFE. It has no trap (60_exceptions.md R174), its bus has no
error response (20_memory.md R59), no access faults (R180) and no state is terminal (43_transfer_engine.md R151). Safe:
the model has no fault to hide behind, every step must give a next state. -/
inductive Fault where
  deriving DecidableEq, Repr

/-- Why an instruction has no next state. -/
inductive Refusal where
  /-- An arm of exec that has no meaning yet, by its mnemonic. Safe: the model says nothing of that instruction. No arm
  raises it in this model. -/
  | notModelled (mnemonic : String)
  deriving DecidableEq, Repr

/-- The machine right after reset: the table of 10_state.md R52, with both buffers unlisted ("unspecified"), BUF_BYTES the
free parameter, and the model's own fields at rest. -/
def State.reset : State where
  state := .idle
  seenM0 := false
  hdrIdx := 0
  hdrRaw := ⟨0, 0, 0, 0, 0, 0⟩
  reqDir := 0
  reqH := 0
  reqW := 0
  reqFmt := 0
  payloadSize := 0
  reqValid := false
  xferCount := 0
  pend := 0
  encRdy := false
  dstH := 0
  dstW := 0
  dstC := 0
  srcH := 0
  srcW := 0
  srcC := 0
  errCode := .none
  resyncCount := 0
  scanCount := 0
  irqStatus := 0
  irqEnable := 0
  linkQ := false
  irqSet := 0
  irqClear := 0
  srcBuf := []
  dstBuf := []
  bufBytes := Config.bufBytes
  inputs := []
  cycle := 0
  inp := CycleIn.quiet
  out := { rxReady := false, tx := none, rdUnitLen := 0, rdUnitRem := 0, irq := false, busRdata := 0 }
  txLog := []

end Sys2Proof.Machine
end

