-- ==== Sys2Proof/Machine/Flags.lean ====
section
/-!
DEFINITION. Flags and numeric codes: the bit of each interrupt source, setting a bit, the end-of-cycle commit, the `irq`
line, and the numbers STATE and ERR_CODE are read as (10_state.md R21, R24, R45, R50; 60_exceptions.md R164, R165, R176).
The HFE has no arithmetic condition codes (R50); its other flags (SEEN_M0, REQ_VALID, enc_rdy, LINK_Q) are written by the
steps that the rules name.
-/

namespace Sys2Proof.Machine

/-- The bit of IRQ_STATUS and IRQ_ENABLE that an interrupt source has (10_state.md R45). -/
def IrqBit.mask : IrqBit → BitVec 7
  | .hdr => 0x01
  | .done => 0x02
  | .cycfail => 0x04
  | .resync => 0x08
  | .cancel => 0x10
  | .linkf => 0x20
  | .cmdrej => 0x40

/-- SetIrq(bit): the bit joins the cycle's set mask (60_exceptions.md R176). -/
def setIrq (bit : IrqBit) (s : State) : State := { s with irqSet := s.irqSet ||| bit.mask }

/-- A host write of v to IRQ_STATUS: v[6:0] joins the cycle's clear mask (60_exceptions.md R176). -/
def clearIrq (v : Word) (s : State) : State := { s with irqClear := s.irqClear ||| v.setWidth 7 }

/-- IRQ_STATUS after the commit: a set wins over a clear (60_exceptions.md R176). -/
def committedIrq (status set clear : BitVec 7) : BitVec 7 := (status &&& ~~~clear) ||| set

/-- Phase 5 of 43_transfer_engine.md R149: the interrupt commit and LINK_Q. The masks go back to 0 for the next cycle
(60_exceptions.md R176: "Both masks start each cycle at 0"). -/
def commit (s : State) : State :=
  { s with
    irqStatus := committedIrq s.irqStatus s.irqSet s.irqClear
    irqSet := 0
    irqClear := 0
    linkQ := s.inp.linkUp }

/-- The `irq` output (10_state.md R21). -/
def irqLine (s : State) : Bool := s.irqStatus &&& s.irqEnable != 0

/-- The number STATE reads as (10_state.md R24). -/
def EngineState.code : EngineState → BitVec 3
  | .idle => 0
  | .scan => 1
  | .hdr => 2
  | .hdrDecoded => 3
  | .reading => 4
  | .writing => 5

/-- The number ERR_CODE reads as (60_exceptions.md R164). -/
def ErrCode.code : ErrCode → BitVec 4
  | .none => 0
  | .incompleteHeader => 1
  | .unknownDirection => 2
  | .unknownFormat => 3
  | .zeroDimension => 4
  | .sizeOverflow => 5
  | .shortRead => 6
  | .shortWrite => 7
  | .bufOverflow => 8
  | .linkFatal => 9
  | .cancelled => 10

/-- LAST_ERR.CLASS as a function of the code (60_exceptions.md R165). -/
def errClass (code : BitVec 4) : BitVec 3 :=
  if code = 0 then 0
  else if code ≤ 4 then 1
  else if code ≤ 8 then 2
  else if code = 9 then 3
  else if code = 10 then 4
  else 0

end Sys2Proof.Machine
end

