-- ==== Sys2Proof/Machine/Ops.lean ====
section
/-!
DEFINITION. The named operations that the meanings share: reading and writing a buffer, rejecting a command, and the error
entries of 60_exceptions.md R170 to R173 as ONE operation. There is no return from an error (R174, R178).
-/

namespace Sys2Proof.Machine

/-! ### Outcomes -/

/-- Go on from a next state; a fault or a refusal stays. -/
def andThen (o : Host.Outcome State Fault Refusal) (f : State → Host.Outcome State Fault Refusal) :
    Host.Outcome State Fault Refusal :=
  match o with
  | .next s => f s
  | .fault r => .fault r
  | .refused r => .refused r

/-! ### Buffers -/

/-- The byte a memory lists at an index, if it lists one. -/
def Memory.read : Memory → Nat → Option Byte
  | [], _ => none
  | (x, v) :: m, a => if a = x then some v else Memory.read m a

/-- List a byte at an index, in place. -/
def Memory.write : Memory → Nat → Byte → Memory
  | [], a, b => [(a, b)]
  | (x, v) :: m, a, b =>
    if a < x then (a, b) :: (x, v) :: m
    else if a = x then (a, b) :: m
    else (x, v) :: Memory.write m a b

/-- The canonical form: indices strictly rising. An unlisted index has no value, so no entry can equal what an unlisted
one reads as (notes/assumptions/4.md). -/
def Memory.wf : Memory → Bool
  | [] => true
  | [_] => true
  | c :: d :: m => decide (c.1 < d.1) && Memory.wf (d :: m)

/-- Every listed index is below n. -/
def Memory.below (n : Nat) (m : Memory) : Bool := m.all fun c => decide (c.1 < n)

/-- The memory of a buffer. -/
def State.buffer (s : State) : BufId → Memory
  | .src => s.srcBuf
  | .dst => s.dstBuf

/-- MemRead of one byte (00_scope.md R10). A byte that nothing has written since power-on has a free value
(10_state.md R52, notes/assumptions/4.md). -/
def State.bufferByte (s : State) (buf : BufId) (i : Nat) : Byte :=
  (Memory.read (s.buffer buf) i).getD (Config.unwritten buf i)

/-- Store a byte in a buffer of n bytes. An index the buffer does not have holds nothing (20_memory.md R53, R60:
"if i < BUF_BYTES"). -/
def storeByte (n : Nat) (m : Memory) (i : Nat) (b : Byte) : Memory :=
  if i < n then Memory.write m i b else m

/-- MemWrite of a byte string, its first byte at index i (00_scope.md R10). -/
def storeBytes (n : Nat) (m : Memory) (i : Nat) : List Byte → Memory
  | [] => m
  | b :: bs => storeBytes n (storeByte n m i b) (i + 1) bs

/-! ### Rejections and errors -/

/-- Reject (43_transfer_engine.md R146): CMDREJ, "nothing else changes". -/
def reject (s : State) : State := setIrq .cmdrej s

/-- The four error entries (60_exceptions.md R170 to R173), each a change of the engine's state within the cycle. -/
def enterError (e : ErrorEntry) (s : State) : State :=
  match e with
  | .resync code =>
    setIrq .resync
      { s with errCode := code, resyncCount := s.resyncCount + 1, seenM0 := false, hdrIdx := 0, state := .scan }
  | .cycleFail code =>
    setIrq .cycfail { s with errCode := code, reqValid := false, encRdy := false, state := .idle }
  | .linkFatal =>
    setIrq .linkf
      { s with errCode := .linkFatal, reqValid := false, encRdy := false, seenM0 := false, hdrIdx := 0, state := .idle }
  | .cancelled =>
    setIrq .cancel { s with errCode := .cancelled, reqValid := false, seenM0 := false, hdrIdx := 0, state := .idle }

/-- A cycle with `rst = 1` (70_reset_and_hazards.md R184): every register at its reset value, the cycle's masks dropped,
the buffers kept. BUF_BYTES is a parameter, and what stands at the ports is the environment's. -/
def resetRegisters (s : State) : State :=
  { State.reset with
    srcBuf := s.srcBuf
    dstBuf := s.dstBuf
    bufBytes := s.bufBytes
    inputs := s.inputs
    cycle := s.cycle
    inp := s.inp
    out := s.out
    txLog := s.txLog }

end Sys2Proof.Machine
end

