-- ==== Sys2Proof/Machine/Operands.lean ====
section
/-!
DEFINITION. Operand forms: header bytes and the words they make, sizes, the host address map, the values a bus access reads,
and the output ports (00_scope.md R11; 10_state.md R19 to R22, R37 to R48; 20_memory.md R58 to R60; 40_frame_scanner.md
R110).
-/

namespace Sys2Proof.Machine

/-! ### Sizes and rounding -/

/-- Bytes per pixel (00_scope.md R11). A Request holds no format 0 (10_state.md R27: "none yet"). -/
def bpp (fmt : BitVec 2) : Nat :=
  if fmt = 1 then 1 else if fmt = 2 then 2 else if fmt = 3 then 3 else 0

/-- Channels of the decoded buffer (00_scope.md R11). -/
def nch (fmt : BitVec 2) : Nat :=
  if fmt = 1 then 1 else if fmt = 2 then 3 else if fmt = 3 then 3 else 0

/-- rhu(S, T): S / T rounded to nearest, ties up (00_scope.md R11). -/
def rhu (S T : Nat) : Nat := (2 * S + T) / (2 * T)

/-- size(h, w, fmt), exact (40_frame_scanner.md R110). -/
def payloadBytes (h w : Half) (fmt : BitVec 2) : Nat := h.toNat * w.toNat * bpp fmt

/-- The bytes a decoded buffer takes (43_transfer_engine.md R143). -/
def decodedBytes (h w : Half) (fmt : BitVec 2) : Nat := h.toNat * w.toNat * nch fmt

/-! ### Header bytes -/

/-- HDR_RAW[k] <- b. -/
def HdrRaw.set (r : HdrRaw) (k : Fin 6) (b : Byte) : HdrRaw :=
  match k with
  | 0 => { r with b0 := b }
  | 1 => { r with b1 := b }
  | 2 => { r with b2 := b }
  | 3 => { r with b3 := b }
  | 4 => { r with b4 := b }
  | 5 => { r with b5 := b }

/-- Two bytes of a header field, the first the more significant (20_memory.md R61, 30_encoding.md R84). -/
def halfOf (hi lo : Byte) : Half := hi ++ lo

/-- The six field bytes of a header (30_encoding.md R78). -/
def headerBytes (dir : Byte) (height width : Half) (fmt : Byte) : HdrRaw :=
  ⟨dir, highByte height, lowByte height, highByte width, lowByte width, fmt⟩

/-- The 8-byte header word once its last byte has come: the marker the scanner matched, the five field bytes held, the
byte received (30_encoding.md R78). -/
def headerWord (r : HdrRaw) (b : Byte) : BitVec 64 :=
  0x5354#16 ++ r.b0 ++ r.b1 ++ r.b2 ++ r.b3 ++ r.b4 ++ b

/-! ### The host address map -/

/-- The regions of 20_memory.md R58, with the offset or byte index inside. -/
inductive Region where
  /-- 0x0000_0000 .. 0x00FF_FFFF -/
  | csr (offset : Nat)
  /-- 0x0100_0000 .. 0x01FF_FFFF -/
  | dst (i : Nat)
  /-- 0x0200_0000 .. 0x02FF_FFFF -/
  | src (i : Nat)
  /-- 0x0300_0000 .. 0xFFFF_FFFF -/
  | reserved
  deriving DecidableEq, Repr

/-- The region an address falls in (20_memory.md R58). -/
def regionOf (a : Word) : Region :=
  if a.toNat < 0x01000000 then .csr a.toNat
  else if a.toNat < 0x02000000 then .dst (a.toNat - 0x01000000)
  else if a.toNat < 0x03000000 then .src (a.toNat - 0x02000000)
  else .reserved

/-- STATUS (10_state.md R39). -/
def statusWord (s : State) : Word :=
  0#22 ++ BitVec.ofBool (irqLine s) ++ BitVec.ofNat 3 s.hdrIdx.val ++ BitVec.ofBool s.seenM0 ++ BitVec.ofBool s.linkQ
    ++ BitVec.ofBool s.reqValid ++ s.state.code

/-- The value a 4-byte read at a CSR offset gives (10_state.md R37 to R48). CMD is write-only and an unlisted offset is
reserved: both read 0. -/
def csrValue (s : State) (offset : Nat) : Word :=
  match offset with
  | 0x04 => statusWord s
  | 0x08 => 0#22 ++ s.reqFmt ++ 0#6 ++ s.reqDir
  | 0x0C => s.reqH ++ s.reqW
  | 0x10 => s.payloadSize
  | 0x14 => s.xferCount
  | 0x18 => 0#25 ++ errClass s.errCode.code ++ s.errCode.code
  | 0x1C => s.hdrRaw.b3 ++ s.hdrRaw.b2 ++ s.hdrRaw.b1 ++ s.hdrRaw.b0
  | 0x20 => 0#16 ++ s.hdrRaw.b5 ++ s.hdrRaw.b4
  | 0x24 => s.resyncCount
  | 0x28 => s.scanCount
  | 0x2C => 0#25 ++ s.irqStatus
  | 0x30 => 0#25 ++ s.irqEnable
  | 0x34 => s.srcH ++ s.srcW
  | 0x38 => 0#30 ++ s.srcC
  | 0x3C => s.dstH ++ s.dstW
  | 0x40 => 0#30 ++ s.dstC
  | 0x44 => BitVec.ofNat 32 s.bufBytes
  | _ => 0

/-- A window's byte: 0x00 past the end of the buffer (20_memory.md R60). -/
def windowByte (s : State) (buf : BufId) (i : Nat) : Byte :=
  if i < s.bufBytes then s.bufferByte buf i else 0

/-- A read of a buffer window (20_memory.md R60): four bytes pack little-endian (R63), misaligned they read 0 (R65). -/
def windowRead (s : State) (buf : BufId) (w32 : Bool) (i : Nat) : Word :=
  if w32 then
    if i % 4 = 0 then
      windowByte s buf (i + 3) ++ windowByte s buf (i + 2) ++ windowByte s buf (i + 1) ++ windowByte s buf i
    else 0
  else (windowByte s buf i).setWidth 32

/-- What a read access returns (20_memory.md R59, R60). -/
def busValue (s : State) (w32 : Bool) (a : Word) : Word :=
  match regionOf a with
  | .csr offset => if w32 then csrValue s offset else 0
  | .dst i => windowRead s .dst w32 i
  | .src i => windowRead s .src w32 i
  | .reserved => 0

/-- A write access that is no command (20_memory.md R59, R60; 10_state.md R45 to R47), gated by the cycle's starting
STATE s0. Everything else a host may write to is read-only, reserved or misaligned and ignores the write. -/
def dataWrite (s0 : EngineState) (w32 : Bool) (a v : Word) (s : State) : State :=
  match regionOf a with
  | .csr offset =>
    if w32 then
      match offset with
      | 0x2C => clearIrq v s
      | 0x30 => { s with irqEnable := v.setWidth 7 }
      | 0x34 => if s0 = .writing then s else { s with srcH := v.extractLsb' 16 16, srcW := v.extractLsb' 0 16 }
      | 0x38 => if s0 = .writing then s else { s with srcC := v.setWidth 2 }
      | _ => s
    else s
  | .src i =>
    if s0 = .writing then s
    else if w32 then
      if i % 4 = 0 then
        { s with
          srcBuf := storeBytes s.bufBytes s.srcBuf i
            [v.extractLsb' 0 8, v.extractLsb' 8 8, v.extractLsb' 16 8, v.extractLsb' 24 8] }
      else s
    else { s with srcBuf := storeBytes s.bufBytes s.srcBuf i [v.extractLsb' 0 8] }
  | .dst _ => s
  | .reserved => s

end Sys2Proof.Machine
end

