-- ==== Sys2Proof/Machine/Commands.lean ====
section
/-!
DEFINITION. The meanings of the four host commands (43_transfer_engine.md R142 to R146), as phase 2 of the cycle runs them
on its working state. `link_up` is this cycle's input.
-/

namespace Sys2Proof.Machine

/-- POLL (R142). -/
def execPoll (s : State) : Host.Outcome State Fault Refusal :=
  if s.state ≠ .idle then .next (reject s)
  else if s.inp.linkUp = false then .next (enterError .linkFatal s)
  else .next { s with errCode := .none, seenM0 := false, hdrIdx := 0, state := .scan }

/-- READ (R143): rejected without a live DeviceWrites Request, then the capacity check. -/
def execRead (s : State) : Host.Outcome State Fault Refusal :=
  if s.state ≠ .hdrDecoded ∨ s.reqDir ≠ 1 then .next (reject s)
  else if decodedBytes s.reqH s.reqW s.reqFmt > s.bufBytes then .next (enterError (.cycleFail .bufOverflow) s)
  else .next { s with xferCount := 0, state := .reading }

/-- The source descriptor WRITE asks for (R144). -/
def sourceLegal (s : State) : Bool :=
  (s.srcC == 1 || s.srcC == 3) && s.srcH != 0 && s.srcW != 0
    && decide (s.srcH.toNat * s.srcW.toNat * s.srcC.toNat ≤ s.bufBytes)

/-- WRITE (R144): rejected without a live DeviceReads Request or without a legal source, the Request staying live. -/
def execWrite (s : State) : Host.Outcome State Fault Refusal :=
  if s.state ≠ .hdrDecoded ∨ s.reqDir ≠ 2 then .next (reject s)
  else if sourceLegal s = false then .next (reject s)
  else .next { s with xferCount := 0, encRdy := false, state := .writing }

/-- CANCEL (R145). -/
def execCancel (s : State) : Host.Outcome State Fault Refusal :=
  if s.state = .scan ∨ s.state = .hdrDecoded then .next (enterError .cancelled s)
  else .next (reject s)

end Sys2Proof.Machine
end

