-- ==== Sys2Proof/Machine/Decoder.lean ====
section
/-!
DEFINITION. The Pixel Decoder, state READING (41_codec_decode.md R114 to R124).
-/

namespace Sys2Proof.Machine

/-- expand5 (R120): (v << 3) | (v >> 2). -/
def expand5 (v : BitVec 5) : Byte := (v.setWidth 8 <<< 3) ||| (v.setWidth 8 >>> 2)

/-- expand6 (R120): (v << 2) | (v >> 4). -/
def expand6 (v : BitVec 6) : Byte := (v.setWidth 8 <<< 2) ||| (v.setWidth 8 >>> 4)

/-- The three channels of an RGB565 word p: R5 = p[15:11], G6 = p[10:5], B5 = p[4:0] (30_encoding.md R88, R117). -/
def unpack565 (p : BitVec 16) : List Byte :=
  [expand5 (p.extractLsb' 11 5), expand6 (p.extractLsb' 5 6), expand5 (p.extractLsb' 0 5)]

/-- DecodeComplete (R121). -/
def decodeComplete (s : State) : State :=
  setIrq .done
    { s with
      dstH := s.reqH
      dstW := s.reqW
      dstC := BitVec.ofNat 2 (nch s.reqFmt)
      reqValid := false
      state := .idle }

/-- XFER_COUNT <- k + 1, and DecodeComplete after the last byte (R116 to R118). -/
def decodeAdvance (s : State) : State :=
  if s.xferCount + 1 = s.payloadSize then decodeComplete { s with xferCount := s.xferCount + 1 }
  else { s with xferCount := s.xferCount + 1 }

/-- The READING byte step of Grayscale (R116) and of RGB888 (R118): wire byte k is buffer byte k. -/
def readPlainByte (b : Byte) (s : State) : State :=
  decodeAdvance { s with dstBuf := storeBytes s.bufBytes s.dstBuf s.xferCount.toNat [b] }

/-- The READING byte step of RGB565 (R117): the first byte of a pixel waits in PEND, the second writes its three
channels. -/
def readPackedByte (b : Byte) (s : State) : State :=
  let k := s.xferCount.toNat
  decodeAdvance
    (if k % 2 = 0 then { s with pend := b }
     else { s with dstBuf := storeBytes s.bufBytes s.dstBuf (3 * ((k - 1) / 2)) (unpack565 (s.pend ++ b)) })

end Sys2Proof.Machine
end

