-- ==== Sys2Proof/Machine/Encoder.lean ====
section
/-!
DEFINITION. The Pixel Encoder, state WRITING (42_codec_encode.md R125 to R140): the resize, the channel conversion, the
encoded sequence E and the transmit step. All arithmetic is exact on naturals (R132).
-/

namespace Sys2Proof.Machine

/-- The sum of f over 0..n-1. -/
def sumTo : Nat → (Nat → Nat) → Nat
  | 0, _ => 0
  | n + 1, f => sumTo n f + f n

/-- The source sample S(y, x, c) (R126). -/
def sample (s : State) (y x c : Nat) : Nat :=
  (s.bufferByte .src ((y * s.srcW.toNat + x) * s.srcC.toNat + c)).toNat

/-- The overlap of output interval i, of n source units scaled by m outputs, with source interval y (R128): oy(i, y) is
overlap SH H i y and ox(j, x) is overlap SW W j x. Subtraction of naturals stops at 0, the rule's max(0, ...). -/
def overlap (n m i y : Nat) : Nat := min ((i + 1) * n) ((y + 1) * m) - max (i * n) (y * m)

/-- The resized sample q(i, j, c) (R129). -/
def resized (s : State) (i j c : Nat) : Nat :=
  rhu
    (sumTo s.srcH.toNat fun y =>
      sumTo s.srcW.toNat fun x =>
        overlap s.srcH.toNat s.reqH.toNat i y * overlap s.srcW.toNat s.reqW.toNat j x * sample s y x c)
    (s.srcH.toNat * s.srcW.toNat)

/-- Luma (R132). -/
def luma (r g b : Nat) : Nat := (4899 * r + 9617 * g + 1868 * b + 8192) / 16384

/-- Pack565 (R134), by truncation. -/
def pack565 (r g b : Byte) : BitVec 16 :=
  ((r.setWidth 16 >>> 3) <<< 11) ||| ((g.setWidth 16 >>> 2) <<< 5) ||| (b.setWidth 16 >>> 3)

/-- Bytes565 (R134), high byte first (20_memory.md R62). -/
def bytes565 (r g b : Byte) : List Byte := [highByte (pack565 r g b), lowByte (pack565 r g b)]

/-- The wire bytes of a pixel with resized channels q (R131): a 3-channel source in its own channels, any other source
replicated from channel 0 (R133). WRITE admits no channel count but 1 and 3. -/
def convertPixel (srcC fmt : BitVec 2) (q : Nat → Nat) : List Byte :=
  let byte := fun c => BitVec.ofNat 8 (q c)
  if srcC = 3 then
    if fmt = 1 then [BitVec.ofNat 8 (luma (q 0) (q 1) (q 2))]
    else if fmt = 2 then bytes565 (byte 0) (byte 1) (byte 2)
    else if fmt = 3 then [byte 0, byte 1, byte 2]
    else []
  else
    if fmt = 1 then [byte 0]
    else if fmt = 2 then bytes565 (byte 0) (byte 0) (byte 0)
    else if fmt = 3 then [byte 0, byte 0, byte 0]
    else []

/-- PixelBytes(i, j) (R136). -/
def pixelBytes (s : State) (i j : Nat) : List Byte := convertPixel s.srcC s.reqFmt (resized s i j)

/-- The encoded sequence E (R136): rows top to bottom, columns left to right. -/
def encodedSequence (s : State) : List Byte :=
  (List.range s.reqH.toNat).flatMap fun i => (List.range s.reqW.toNat).flatMap fun j => pixelBytes s i j

/-- EncByte(k) = E[k] (R137), by its pixel k / bpp alone: "An implementation may compute E in any way". -/
def encByte (s : State) (k : Nat) : Byte :=
  (pixelBytes s (k / bpp s.reqFmt / s.reqW.toNat) (k / bpp s.reqFmt % s.reqW.toNat)).getD (k % bpp s.reqFmt) 0

/-- EncodeComplete (R139). -/
def encodeComplete (s : State) : State := setIrq .done { s with reqValid := false, state := .idle }

/-- The WRITING transmit step (R138): the sink has taken EncByte(XFER_COUNT). -/
def transmitByte (s : State) : State :=
  let t := { s with
    encRdy := false
    xferCount := s.xferCount + 1
    txLog := s.txLog ++ [encByte s s.xferCount.toNat] }
  if s.xferCount + 1 = s.payloadSize then encodeComplete t else t

end Sys2Proof.Machine
end

