-- ==== Sys2Proof/Machine/Header.lean ====
section
/-!
DEFINITION. The Header Decoder and the Payload Sizer (40_frame_scanner.md R103 to R113), and the meanings of HDR and of the
two direction codes.
-/

namespace Sys2Proof.Machine

/-- AcceptHeader(n) (R112). -/
def acceptHeader (n : Nat) (s : State) : State :=
  setIrq .hdr { s with payloadSize := BitVec.ofNat 32 n, reqValid := true, state := .hdrDecoded }

/-- SizeOverflow (R113). -/
def sizeOverflow (s : State) : State :=
  enterError (.cycleFail .sizeOverflow) { s with payloadSize := 0 }

/-- HeaderComplete (R104): the fields are checked in wire order, the first that fails decides the one error (R105), and
the size guard comes after all three (R111). -/
def headerComplete (dir : Byte) (height width : Half) (fmt : Byte) (s : State) : State :=
  if dir ≠ 1 ∧ dir ≠ 2 then enterError (.resync .unknownDirection) s
  else if height = 0 ∨ width = 0 then enterError (.resync .zeroDimension) s
  else if fmt ≠ 1 ∧ fmt ≠ 2 ∧ fmt ≠ 3 then enterError (.resync .unknownFormat) s
  else
    let r := { s with reqDir := dir.setWidth 2, reqH := height, reqW := width, reqFmt := fmt.setWidth 2 }
    let n := payloadBytes height width (fmt.setWidth 2)
    if n > 4294967295 then sizeOverflow r else acceptHeader n r

/-- The HDR byte step (R103). A field byte equal to 0x53 or 0x54 is data. -/
def hdrByte (b : Byte) (s : State) : State :=
  let r := s.hdrRaw.set s.hdrIdx b
  if s.hdrIdx = 5 then
    headerComplete r.b0 (halfOf r.b1 r.b2) (halfOf r.b3 r.b4) b { s with hdrRaw := r, hdrIdx := 0 }
  else { s with hdrRaw := r, hdrIdx := s.hdrIdx + 1 }

/-- HDR: the header's last byte has come, so its six field bytes stand in HDR_RAW and the header completes (R103,
R104). It is met only in state HDR with five field bytes held; anywhere else no header is being read. -/
def execHdr (dir : Byte) (height width : Half) (fmt : Byte) (s : State) : Host.Outcome State Fault Refusal :=
  if s.state = .hdr ∧ s.hdrIdx = 5 then
    .next (headerComplete dir height width fmt { s with hdrRaw := headerBytes dir height width fmt, hdrIdx := 0 })
  else .next s

/-- A direction code where the machine meets it, at frame offset 2: it is stored and the header goes on; it is checked on
the complete header only (R103, R106). -/
def directionByte (b : Byte) (s : State) : State :=
  if s.state = .hdr ∧ s.hdrIdx = 0 then hdrByte b s else s

/-- DIR_DeviceWrites, the byte 0x01 at frame offset 2 (30_encoding.md R82). Once the header is accepted it is REQ_DIR,
which admits READ only (43_transfer_engine.md R143, R156). -/
def execDirDeviceWrites (s : State) : Host.Outcome State Fault Refusal := .next (directionByte 0x01 s)

/-- DIR_DeviceReads, the byte 0x02 at frame offset 2 (30_encoding.md R82). Once the header is accepted it is REQ_DIR,
which admits WRITE only (43_transfer_engine.md R144, R156). -/
def execDirDeviceReads (s : State) : Host.Outcome State Fault Refusal := .next (directionByte 0x02 s)

end Sys2Proof.Machine
end

