-- ==== Sys2Proof/Machine/Formats.lean ====
section
/-!
DEFINITION. The meanings of the three format codes (30_encoding.md R83). A format code acts in two places: as the byte at
frame offset 7, which completes the header (40_frame_scanner.md R103, R104), and, held in REQ_FMT, on every payload byte of
the Request: it selects the READING byte step (41_codec_decode.md R116 to R118) and the wire bytes the WRITING transmit
step sends (42_codec_encode.md R131, R138).
-/

namespace Sys2Proof.Machine

/-- What a format code does in each state of the engine, given its READING byte step. -/
def formatCode (code : BitVec 2) (readByte : Byte → State → State) (s : State) : State :=
  match s.state with
  | .hdr => if s.hdrIdx = 5 then hdrByte (code.setWidth 8) s else s
  | .reading => if s.reqFmt = code then readByte s.inp.rxData s else s
  | .writing => if s.reqFmt = code then transmitByte s else s
  | .idle => s
  | .scan => s
  | .hdrDecoded => s

/-- FMT_Grayscale: decode 41_codec_decode.md R116, encode 42_codec_encode.md R131. -/
def execFmtGrayscale (s : State) : Host.Outcome State Fault Refusal := .next (formatCode 1 readPlainByte s)

/-- FMT_RGB565: decode 41_codec_decode.md R117, encode 42_codec_encode.md R134. -/
def execFmtRGB565 (s : State) : Host.Outcome State Fault Refusal := .next (formatCode 2 readPackedByte s)

/-- FMT_RGB888: decode 41_codec_decode.md R118, encode 42_codec_encode.md R135. -/
def execFmtRGB888 (s : State) : Host.Outcome State Fault Refusal := .next (formatCode 3 readPlainByte s)

end Sys2Proof.Machine
end

