-- ==== Sys2Proof/Machine/Scanner.lean ====
section
/-!
DEFINITION. The Frame Scanner (40_frame_scanner.md R96 to R102) and the meaning of SYNC.
-/

namespace Sys2Proof.Machine

/-- The SCAN byte step (R97): the marker's second byte after its first is the match; any other byte is noise that only
sets or clears SEEN_M0. -/
def scanByte (b : Byte) (s : State) : State :=
  if s.seenM0 ∧ b = 0x54 then
    { s with scanCount := s.scanCount + 1, state := .hdr, hdrIdx := 0, seenM0 := false }
  else
    { s with scanCount := s.scanCount + 1, seenM0 := b == 0x53 }

/-- SYNC: the marker's last byte 0x54 reaches the scanner. SEEN_M0 says whether its first byte came just before it
(R97); without it the byte is noise. Outside SCAN "the scanner inspects no byte" (R98). -/
def execSync (s : State) : Host.Outcome State Fault Refusal :=
  if s.state = .scan then .next (scanByte 0x54 s) else .next s

end Sys2Proof.Machine
end

