-- ==== Sys2Proof/Machine/Dispatch.lean ====
section
/-!
DEFINITION. One arm per row of spec/opcode_table.json.
-/

namespace Sys2Proof.Machine

def exec (i : Instr) (s : State) : Host.Outcome State Fault Refusal :=
  match i with
  | .poll => Sys2Proof.Machine.execPoll s
  | .read => Sys2Proof.Machine.execRead s
  | .write => Sys2Proof.Machine.execWrite s
  | .cancel => Sys2Proof.Machine.execCancel s
  | .sync => Sys2Proof.Machine.execSync s
  | .hdr dir height width fmt => Sys2Proof.Machine.execHdr dir height width fmt s
  | .dirDeviceWrites => Sys2Proof.Machine.execDirDeviceWrites s
  | .dirDeviceReads => Sys2Proof.Machine.execDirDeviceReads s
  | .fmtGrayscale => Sys2Proof.Machine.execFmtGrayscale s
  | .fmtRGB565 => Sys2Proof.Machine.execFmtRGB565 s
  | .fmtRGB888 => Sys2Proof.Machine.execFmtRGB888 s

end Sys2Proof.Machine
end

