-- ==== Sys2Proof/Machine/Ports.lean ====
section
/-!
DEFINITION. The output ports, phase 0 of the cycle: functions of the state at the start of the cycle and of this cycle's
inputs (10_state.md R17, R19 to R22).
-/

namespace Sys2Proof.Machine

/-- `cancel_now` (R19): a CANCEL written in this cycle while the scanner runs. -/
def cancelNow (s : State) (inp : CycleIn) : Bool :=
  inp.busEn && inp.busWe && inp.busW32 && inp.busAddr == 0 && inp.busWdata == 4 && s.state == .scan

/-- `rx_ready` (R19). -/
def rxReady (s : State) (inp : CycleIn) : Bool :=
  !inp.rst && inp.linkUp && (s.state == .scan || s.state == .hdr || s.state == .reading) && !cancelNow s inp

/-- `tx_valid` (R19). -/
def txValid (s : State) (inp : CycleIn) : Bool :=
  !inp.rst && inp.linkUp && s.state == .writing && s.encRdy

/-- `rd_unit_len` and `rd_unit_rem` (R20). -/
def readUnit (s : State) : Word × Word :=
  match s.state with
  | .scan => (1, 1)
  | .hdr =>
    match s.hdrIdx with
    | 0 => (1, 1)
    | 1 => (2, 2)
    | 2 => (2, 1)
    | 3 => (2, 2)
    | 4 => (2, 1)
    | 5 => (1, 1)
  | .reading => (s.payloadSize, s.payloadSize - s.xferCount)
  | .idle => (0, 0)
  | .hdrDecoded => (0, 0)
  | .writing => (0, 0)

/-- `bus_rdata` (R22): 0 but in a read access. -/
def busRdata (s : State) (inp : CycleIn) : Word :=
  if inp.busEn && !inp.busWe then busValue s inp.busW32 inp.busAddr else 0

/-- The outputs of a cycle. -/
def outputs (s : State) (inp : CycleIn) : PortOut where
  rxReady := rxReady s inp
  tx := if txValid s inp then some (encByte s s.xferCount.toNat) else none
  rdUnitLen := (readUnit s).1
  rdUnitRem := (readUnit s).2
  irq := irqLine s
  busRdata := busRdata s inp

end Sys2Proof.Machine
end

