-- ==== Sys2Proof/Machine/Cycle.lean ====
section
/-!
DEFINITION. The clock cycle in the phases of 43_transfer_engine.md R149. Each phase works on the state the phases before it
left; s0 is STATE at the start of the cycle. A code is fetched where it arrives and run by exec: a command word from the
bus in phase 2, a marker, header or direction byte from the receive port in phase 3a, a payload byte's format code from
REQ_FMT in phases 3a and 3c.
-/

namespace Sys2Proof.Machine

/-! ### Inputs and phase 0 -/

/-- This cycle's inputs: the next listed ones, else free (notes/assumptions/1.md, 2.md). -/
def currentInput (s : State) : CycleIn := s.inputs.headD (Config.freeInput s.cycle)

/-- Sample the inputs and drive the outputs (phase 0); both interrupt masks "start each cycle at 0" (60_exceptions.md
R176). -/
def beginCycle (s : State) : State :=
  { s with
    inp := currentInput s
    inputs := s.inputs.tail
    cycle := s.cycle + 1
    out := outputs s (currentInput s)
    irqSet := 0
    irqClear := 0 }

/-! ### Phases 1 and 2 -/

/-- Phase 1: link loss (60_exceptions.md R172). -/
def linkPhase (s : State) : State :=
  if s.inp.linkUp = false ∧ (s.linkQ = true ∨ s.state ≠ .idle) then enterError .linkFatal s else s

/-- A 4-byte write to CMD: a command word is run, a reserved word is rejected (43_transfer_engine.md R146). -/
def commandWrite (w : Word) (s : State) : Host.Outcome State Fault Refusal :=
  match decode (.command w) with
  | .ok i => exec i s
  | .error _ => .next (reject s)

/-- Phase 2: the bus write. -/
def busPhase (s0 : EngineState) (s : State) : Host.Outcome State Fault Refusal :=
  if s.inp.busEn && s.inp.busWe then
    if s.inp.busW32 && s.inp.busAddr == 0 then commandWrite s.inp.busWdata s
    else .next (dataWrite s0 s.inp.busW32 s.inp.busAddr s.inp.busWdata s)
  else .next s

/-! ### Phase 3 -/

/-- The code that a received byte completes, by where the engine is: the marker's second byte, the direction byte, the
header's last byte, or in READING the format code of REQ_FMT. -/
def fetchReceived (b : Byte) (s : State) : Except DecodeError Instr :=
  match s.state with
  | .scan => if s.seenM0 then decode (.marker (0x53#8 ++ b)) else .error .notMarker
  | .hdr =>
    if s.hdrIdx = 0 then decode (.direction b)
    else if s.hdrIdx = 5 then decode (.header (headerWord s.hdrRaw b))
    else .error .partialWord
  | .reading => decode (.format (s.reqFmt.setWidth 8))
  | .idle => .error .partialWord
  | .hdrDecoded => .error .partialWord
  | .writing => .error .partialWord

/-- A received byte that completes no code: noise (40_frame_scanner.md R97) or a field byte (R103). -/
def plainByte (b : Byte) (s : State) : State :=
  match s.state with
  | .scan => scanByte b s
  | .hdr => hdrByte b s
  | .reading => s
  | .idle => s
  | .hdrDecoded => s
  | .writing => s

/-- Phase 3a: the byte step. -/
def receivePhase (s : State) : Host.Outcome State Fault Refusal :=
  match fetchReceived s.inp.rxData s with
  | .ok i => exec i s
  | .error _ => .next (plainByte s.inp.rxData s)

/-- Phase 3b: the time-out rule of s0 (40_frame_scanner.md R101, R107; 41_codec_decode.md R122; 43_transfer_engine.md
R154), told HDR_IDX at the start of the cycle and whether 3a moved a byte. A byte at HDR_IDX 0, 2, 4 or 5 completed its
read unit and voids the time-out. -/
def timeoutStep (s0 : EngineState) (idx0 : Fin 6) (moved : Bool) (s : State) : State :=
  match s0 with
  | .hdr =>
    if moved ∧ idx0 ≠ 1 ∧ idx0 ≠ 3 then s else enterError (.resync .incompleteHeader) s
  | .reading => enterError (.cycleFail .shortRead) s
  | .idle => s
  | .scan => s
  | .hdrDecoded => s
  | .writing => s

/-- Phase 3c: the transmit step, run through the format code of REQ_FMT (42_codec_encode.md R138). -/
def transmitPhase (s : State) : Host.Outcome State Fault Refusal :=
  match decode (.format (s.reqFmt.setWidth 8)) with
  | .ok i => exec i s
  | .error _ => .next (transmitByte s)

/-- Phase 3d: a write failure (42_codec_encode.md R140). -/
def writeFailStep (s0 : EngineState) (s : State) : State :=
  if s.inp.txFail = true ∧ s0 = .writing ∧ s.state = .writing then enterError (.cycleFail .shortWrite) s else s

/-- Phase 3: only if no earlier phase of the cycle changed STATE. -/
def streamPhase (s0 : EngineState) (idx0 : Fin 6) (s : State) : Host.Outcome State Fault Refusal :=
  if s.state ≠ s0 then .next s
  else
    let moved := s.inp.rxValid && s.out.rxReady
    andThen (if moved then receivePhase s else .next s) fun s1 =>
      let s2 := if s1.inp.rxTimeout = true ∧ s1.state = s0 then timeoutStep s0 idx0 moved s1 else s1
      andThen (if s2.out.tx.isSome && s2.inp.txReady then transmitPhase s2 else .next s2) fun s3 =>
        .next (writeFailStep s0 s3)

/-! ### Phase 4 and the cycle -/

/-- Phase 4: the encoder's draw (10_state.md R30). -/
def encoderPhase (s : State) : State :=
  if s.state = .writing ∧ s.encRdy = false then { s with encRdy := s.inp.encDraw } else s

/-- One rising edge (43_transfer_engine.md R149; 70_reset_and_hazards.md R184 for `rst`). -/
def clockCycle (s : State) : Host.Outcome State Fault Refusal :=
  let b := beginCycle s
  if b.inp.rst = true then .next (resetRegisters b)
  else
    andThen (busPhase s.state (linkPhase b)) fun s2 =>
      andThen (streamPhase s.state s.hdrIdx s2) fun s3 =>
        .next (commit (encoderPhase s3))

/-! ### Placing a word where the next cycle fetches it -/

/-- A cycle with the link up and nothing else. -/
def linkedCycle : CycleIn := { CycleIn.quiet with linkUp := true }

/-- A cycle in which the host writes a word to CMD. -/
def commandCycle (w : Word) : CycleIn :=
  { linkedCycle with busEn := true, busWe := true, busW32 := true, busAddr := 0, busWdata := w }

/-- A cycle in which the byte source offers a byte. -/
def byteCycle (b : Byte) : CycleIn := { linkedCycle with rxValid := true, rxData := b }

/-- A host write to CMD in the coming cycle. -/
def placeCommand (w : Word) (s : State) : State := { s with inputs := commandCycle w :: s.inputs }

/-- A marker whose first byte the scanner has taken and whose second byte comes. -/
def placeMarker (w : BitVec 16) (s : State) : State :=
  { s with
    state := .scan
    seenM0 := highByte w == 0x53
    inputs := byteCycle (lowByte w) :: s.inputs }

/-- A header whose first seven bytes have been taken and whose last byte comes; without the marker in front the word is
no header and its bytes are noise to the scanner. -/
def placeHeader (w : BitVec 64) (s : State) : State :=
  if w.extractLsb' 48 16 = 0x5354 then
    { s with
      state := .hdr
      hdrIdx := 5
      hdrRaw := ⟨w.extractLsb' 40 8, w.extractLsb' 32 8, w.extractLsb' 24 8, w.extractLsb' 16 8, w.extractLsb' 8 8,
        s.hdrRaw.b5⟩
      inputs := byteCycle (w.extractLsb' 0 8) :: s.inputs }
  else { s with state := .scan, inputs := byteCycle (w.extractLsb' 0 8) :: s.inputs }

/-- A direction byte that comes at frame offset 2. -/
def placeDirection (b : Byte) (s : State) : State :=
  { s with state := .hdr, hdrIdx := 0, inputs := byteCycle b :: s.inputs }

/-- A format code in REQ_FMT, with a live 1x1 DeviceWrites Request and its first payload byte coming. -/
def placeFormat (b : Byte) (s : State) : State :=
  { s with
    state := .reading
    reqDir := 1
    reqH := 1
    reqW := 1
    reqFmt := b.setWidth 2
    reqValid := true
    payloadSize := BitVec.ofNat 32 (payloadBytes 1 1 (b.setWidth 2))
    xferCount := 0
    inputs := byteCycle 0 :: s.inputs }

/-- The word of decodeTableWord, placed where it is read as that instruction: an 8-bit word that is a direction code at
frame offset 2, another format code in REQ_FMT (notes/assumptions/10.md). -/
def placeTableWord (nbits w : Nat) (s : State) : State :=
  match nbits with
  | 32 => placeCommand (BitVec.ofNat 32 w) s
  | 16 => placeMarker (BitVec.ofNat 16 w) s
  | 64 => placeHeader (BitVec.ofNat 64 w) s
  | 8 =>
    match decode (.direction (BitVec.ofNat 8 w)), decode (.format (BitVec.ofNat 8 w)) with
    | .error _, .ok _ => placeFormat (BitVec.ofNat 8 w) s
    | _, _ => placeDirection (BitVec.ofNat 8 w) s
  | _ => s

end Sys2Proof.Machine
end

