-- ==== Sys2Proof/Machine/Step.lean ====
section
/-!
DEFINITION. The step: one rising edge of `clk` (10_state.md R18: "The model's step is one rising edge").
-/

namespace Sys2Proof.Machine

/-- One clock cycle. -/
def step (s : State) : Host.Outcome State Fault Refusal := clockCycle s

/-- The state in which the very next step fetches and runs the table's word. -/
def State.withFetchWord (s : State) (nbits w : Nat) : State := placeTableWord nbits w s

end Sys2Proof.Machine
end

