-- ==== Sys2Proof/Safety.lean ====
section
/-!
DEFINITION. What a safe state is, and the spec's own tables in the words claims use: the state invariants
(43_transfer_engine.md R155 with the bounds of 41_codec_decode.md R115 and 42_codec_encode.md R126), the transition table
(R141), the command legality matrix (R147), and runs over given input cycles.
-/

namespace Sys2Proof.Machine

/-! ### Invariants -/

/-- A Request is live in HDR_DECODED, READING and WRITING (10_state.md R27). -/
def EngineState.live : EngineState → Bool
  | .idle => false
  | .scan => false
  | .hdr => false
  | .hdrDecoded => true
  | .reading => true
  | .writing => true

/-- Bytes are moving: READING or WRITING. -/
def EngineState.transferring : EngineState → Bool
  | .idle => false
  | .scan => false
  | .hdr => false
  | .hdrDecoded => false
  | .reading => true
  | .writing => true

/-- What holds after every clock cycle. The letters are those of R155; (h), STATE in 0..5, is the type's. -/
structure Invariant (s : State) : Prop where
  /-- (a) -/
  valid_iff_live : s.reqValid = s.state.live
  /-- (b) -/
  hdrIdx_zero : s.state ≠ .hdr → s.hdrIdx = 0
  /-- (c) -/
  seenM0_clear : s.state ≠ .scan → s.seenM0 = false
  /-- (d) -/
  transfer_open : s.state.transferring = true → s.xferCount.toNat < s.payloadSize.toNat
  /-- (e), the size -/
  payload_sized : s.state.live = true → s.payloadSize.toNat = payloadBytes s.reqH s.reqW s.reqFmt
  /-- (e), at least one byte -/
  payload_pos : s.state.live = true → 1 ≤ s.payloadSize.toNat
  /-- (e), the direction -/
  direction_legal : s.state.live = true → s.reqDir = 1 ∨ s.reqDir = 2
  /-- (e), the format -/
  format_legal : s.state.live = true → s.reqFmt = 1 ∨ s.reqFmt = 2 ∨ s.reqFmt = 3
  /-- (f), READING -/
  reading_direction : s.state = .reading → s.reqDir = 1
  /-- (f), WRITING -/
  writing_direction : s.state = .writing → s.reqDir = 2
  /-- (g) -/
  encRdy_clear : s.state ≠ .writing → s.encRdy = false
  /-- The decoded buffer fits (41_codec_decode.md R115). -/
  reading_fits : s.state = .reading → decodedBytes s.reqH s.reqW s.reqFmt ≤ s.bufBytes
  /-- The source descriptor is legal (42_codec_encode.md R126). -/
  writing_source : s.state = .writing → sourceLegal s = true
  /-- Both masks are 0 between cycles (60_exceptions.md R176). -/
  masks_clear : s.irqSet = 0 ∧ s.irqClear = 0
  /-- BUF_BYTES is in its range (00_scope.md R7). -/
  bufBytes_range : 1 ≤ s.bufBytes ∧ s.bufBytes ≤ 16777216
  /-- Both buffers are in canonical form. -/
  buffers_wf : Memory.wf s.srcBuf = true ∧ Memory.wf s.dstBuf = true
  /-- Both buffers hold only the bytes they have (20_memory.md R53). -/
  buffers_below : Memory.below s.bufBytes s.srcBuf = true ∧ Memory.below s.bufBytes s.dstBuf = true

/-- A payload transfer in READING that has bytes to come and whose decoded buffer fits: `transfer_open`, `payload_sized` and
`reading_fits` of the invariants, which hold throughout READING. -/
def ReadingBounds (s : State) : Prop :=
  s.xferCount.toNat < s.payloadSize.toNat ∧ s.payloadSize.toNat = payloadBytes s.reqH s.reqW s.reqFmt ∧
    decodedBytes s.reqH s.reqW s.reqFmt ≤ s.bufBytes

/-! ### The spec's tables -/

/-- The command a cycle's bus access issues, if it issues one: a 4-byte write of a command word to CMD
(30_encoding.md R76). -/
def hostCommand (c : CycleIn) : Option Instr :=
  if c.busEn && c.busWe && c.busW32 && c.busAddr == 0 then (decode (.command c.busWdata)).toOption else none

/-- A cycle's bus access is a 4-byte write to CMD, of any word. -/
def writesCmd (c : CycleIn) : Bool := c.busEn && c.busWe && c.busW32 && c.busAddr == 0

/-- A CMD write of the word w is accepted with the link up: the matrix of R147. -/
def commandAccepted (s : State) (w : Word) : Bool :=
  match decode (.command w), s.state with
  | .ok .poll, .idle => true
  | .ok .read, .hdrDecoded => s.reqDir == 1
  | .ok .write, .hdrDecoded => s.reqDir == 2 && sourceLegal s
  | .ok .cancel, .scan => true
  | .ok .cancel, .hdrDecoded => true
  | _, _ => false

/-- Where a header that has just completed leads (R141, rows of HDR). -/
def headerTarget (dir : Byte) (height width : Half) (fmt : Byte) : EngineState :=
  if (Instr.hdr dir height width fmt).wellFormed then
    if payloadBytes height width (fmt.setWidth 2) > 4294967295 then .idle else .hdrDecoded
  else .scan

/-- The transition table R141 as a function of the state and the inputs at the start of the cycle, with reset
(70_reset_and_hazards.md R184), link loss first and a byte before a time-out or failure (60_exceptions.md R169). It says
nothing of phases. -/
def tableNext (s : State) (c : CycleIn) : EngineState :=
  if c.rst then .idle
  else if c.linkUp = false then .idle
  else
    match s.state with
    | .idle => if hostCommand c = some .poll then .scan else .idle
    | .scan =>
      if hostCommand c = some .cancel then .idle
      else if c.rxValid ∧ s.seenM0 ∧ c.rxData = 0x54 then .hdr
      else .scan
    | .hdr =>
      if c.rxValid then
        if s.hdrIdx = 5 then
          headerTarget s.hdrRaw.b0 (halfOf s.hdrRaw.b1 s.hdrRaw.b2) (halfOf s.hdrRaw.b3 s.hdrRaw.b4) c.rxData
        else if c.rxTimeout ∧ (s.hdrIdx = 1 ∨ s.hdrIdx = 3) then .scan
        else .hdr
      else if c.rxTimeout then .scan
      else .hdr
    | .hdrDecoded =>
      if hostCommand c = some .read ∧ s.reqDir = 1 then
        if decodedBytes s.reqH s.reqW s.reqFmt ≤ s.bufBytes then .reading else .idle
      else if hostCommand c = some .write ∧ s.reqDir = 2 ∧ sourceLegal s = true then .writing
      else if hostCommand c = some .cancel then .idle
      else .hdrDecoded
    | .reading =>
      if c.rxValid ∧ s.xferCount + 1 = s.payloadSize then .idle
      else if c.rxTimeout then .idle
      else .reading
    | .writing =>
      if s.encRdy ∧ c.txReady ∧ s.xferCount + 1 = s.payloadSize then .idle
      else if c.txFail then .idle
      else .writing

/-! ### Runs over given cycles -/

/-- A state that meets the listed input cycles next. -/
def State.fed (s : State) (cs : List CycleIn) : State := { s with inputs := cs }

/-- The link is up and no reset is asserted. -/
def linked (c : CycleIn) : Bool := c.linkUp && !c.rst

/-- The link is up, no reset is asserted, and the host writes no CANCEL. -/
def undisturbed (c : CycleIn) : Bool := linked c && hostCommand c != some .cancel

/-- The last of the cycles, if there is one, offers a byte. -/
def endsOffering (cs : List CycleIn) : Bool := (cs.getLast?.map fun c => c.rxValid) == some true

/-- The bytes that cycles offer, in order. -/
def offeredBytes (cs : List CycleIn) : List Byte := (cs.filter fun c => c.rxValid).map fun c => c.rxData

/-- The marker pair stands somewhere in the bytes (40_frame_scanner.md R99). -/
def hasMarker : List Byte → Bool
  | a :: b :: rest => (a == 0x53 && b == 0x54) || hasMarker (b :: rest)
  | [_] => false
  | [] => false

/-- n clock cycles. -/
def runCycles (n : Nat) (s : State) : Host.Outcome State Fault Refusal := Host.Core.run Sys2Proof.core n s

/-! ### Fairness and duties: premises for claims that a wait ends -/

/-- n clock cycles from s in which the environment drives env 0, env 1, ... -/
def runUnder (env : Nat → CycleIn) : Nat → State → Host.Outcome State Fault Refusal
  | 0, s => .next s
  | n + 1, s => andThen (runUnder env n s) fun t => step (t.fed [env n])

/-- Again and again along the run from s, a cycle k comes whose starting state and inputs meet P: from no cycle on does P
fail for ever. -/
def Recurs (s : State) (env : Nat → CycleIn) (P : State → CycleIn → Prop) : Prop :=
  ∀ n, ∃ k, n ≤ k ∧ ∀ u, runUnder env k s = .next u → P u (env k)

/-- Encoder latency is finite: weak fairness of the draw (10_state.md R30). The encoder does not stay without its next
byte for ever: from no cycle on is STATE WRITING with enc_rdy 0 and the draw 0 in every cycle. -/
def EncoderFair (s : State) (env : Nat → CycleIn) : Prop :=
  Recurs s env fun u c => ¬(u.state = .writing ∧ u.encRdy = false) ∨ c.encDraw = true

/-- The byte sink's duty (43_transfer_engine.md R159): an offered byte is taken, or the write fails, or the link drops,
within finitely many cycles. With the link down no byte is offered (10_state.md R19). -/
def SinkDuty (s : State) (env : Nat → CycleIn) : Prop :=
  Recurs s env fun u c => txValid u c = false ∨ c.txReady = true ∨ c.txFail = true

/-- The byte source's duty (43_transfer_engine.md R158): in HDR and READING it offers a byte, raises `rx_timeout` or drops
the link within finitely many cycles. -/
def SourceDuty (s : State) (env : Nat → CycleIn) : Prop :=
  Recurs s env fun u c =>
    ¬(u.state = .hdr ∨ u.state = .reading) ∨ c.rxValid = true ∨ c.rxTimeout = true ∨ c.linkUp = false

/-! ### Single cycles -/

/-- What a cycle with the inputs c leaves of s when nothing but the sampling of the ports happens: the inputs and outputs
recorded, LINK_Q following the link (10_state.md R36), the masks at 0. -/
def afterPorts (s : State) (c : CycleIn) (r : List CycleIn) : State :=
  { s with
    inputs := r
    cycle := s.cycle + 1
    inp := c
    out := outputs s c
    irqSet := 0
    irqClear := 0
    linkQ := c.linkUp }

/-- The cycle c with a host access added. -/
def withAccess (c : CycleIn) (we w32 : Bool) (a v : Word) : CycleIn :=
  { c with busEn := true, busWe := we, busW32 := w32, busAddr := a, busWdata := v }

/-- A write access that no register and no buffer byte takes (10_state.md R37; 20_memory.md R58 to R60): a 1-byte or
unlisted or read-only CSR write, a write to the DST window, a misaligned 4-byte write, a reserved address. -/
def ignoredWrite (w32 : Bool) (a : Word) : Bool :=
  match regionOf a with
  | .csr offset => !w32 || !(offset == 0x00 || offset == 0x2C || offset == 0x30 || offset == 0x34 || offset == 0x38)
  | .dst _ => true
  | .src i => w32 && i % 4 != 0
  | .reserved => true

end Sys2Proof.Machine
end

