-- ==== Sys2Proof/Certificates/Slice0/Obligations.lean ====
section
/-!
DEFINITION. The statements for the provers. Each docstring names the rule of spec/ it formalises or rests on.

`s.fed (c :: r)` is the state s whose next cycle has the inputs c; `afterPorts s c r` is what that cycle leaves of s when
nothing happens in it, so `{ afterPorts s c r with ... }` says that nothing changes but what is named.
-/

open Sys2Proof Sys2Proof.Machine

/-! ### Encodings -/

/-- Decoding inverts encoding for every instruction and every operand value (30_encoding.md R76, R78, R81 to R84). -/
def Obligations.DecodeOfEncode : Prop := ∀ i : Instr, decode (encode i) = .ok i

/-- Every word has at most one reading: what decodes to an instruction is that instruction's encoding (30_encoding.md R76,
R91: no encoding is an alias). -/
def Obligations.EncodeOfDecode : Prop := ∀ (w : CodeWord) (i : Instr), decode w = .ok i → encode i = w

/-- A few words written from the spec's encoding tables (R76, R81 to R83, and the headers of Scenarios A and B). -/
def Obligations.SpecWordsDecode : Prop :=
  decode (.command 0x00000002) = .ok .read ∧
  decode (.marker 0x5354) = .ok .sync ∧
  decode (.header 0x5354020004000401) = .ok (.hdr 2 4 4 1) ∧
  decode (.header 0x5354010002000203) = .ok (.hdr 1 2 2 3) ∧
  decode (.direction 0x02) = .ok .dirDeviceReads ∧
  decode (.format 0x02) = .ok .fmtRGB565

/-- The reserved words of the three code spaces, exactly (30_encoding.md R76, R82, R83, R90). -/
def Obligations.ReservedCodesRejected : Prop :=
  (∀ w : BitVec 32, decode (.command w) = .error .reservedCommand ↔ ¬(1 ≤ w.toNat ∧ w.toNat ≤ 4)) ∧
  (∀ b : Byte, decode (.direction b) = .error .unknownDirection ↔ ¬(1 ≤ b.toNat ∧ b.toNat ≤ 2)) ∧
  (∀ b : Byte, decode (.format b) = .error .unknownFormat ↔ ¬(1 ≤ b.toNat ∧ b.toNat ≤ 3))

/-- Header round trip (30_encoding.md R95): feeding EncodeHeader to a scanner in SCAN, whatever idle cycles and host accesses
other than CANCEL come with the bytes, leaves the Request of those fields, live unless its size overflows
(40_frame_scanner.md R113). A time-out is not part of feeding a header. -/
def Obligations.HeaderRoundTrip : Prop :=
  ∀ (s : State) (dir : Byte) (h w : Half) (fmt : Byte) (cs : List CycleIn),
    s.state = .scan → (dir = 1 ∨ dir = 2) → h ≠ 0 → w ≠ 0 → (fmt = 1 ∨ fmt = 2 ∨ fmt = 3) →
    (∀ c ∈ cs, undisturbed c = true ∧ c.rxTimeout = false) →
    offeredBytes cs = encodeHeader dir h w fmt → endsOffering cs = true →
    ∃ t, runCycles cs.length (s.fed cs) = .next t ∧
      t.reqDir = dir.setWidth 2 ∧ t.reqH = h ∧ t.reqW = w ∧ t.reqFmt = fmt.setWidth 2 ∧
      (payloadBytes h w (fmt.setWidth 2) ≤ 4294967295 →
        t.state = .hdrDecoded ∧ t.payloadSize.toNat = payloadBytes h w (fmt.setWidth 2)) ∧
      (4294967295 < payloadBytes h w (fmt.setWidth 2) →
        t.state = .idle ∧ t.errCode = .sizeOverflow ∧ t.payloadSize = 0)

/-! ### Commands -/

/-- POLL (43_transfer_engine.md R142): accepted in IDLE with the link up, LinkFatal in IDLE with the link down, rejected
elsewhere; nothing else changes. -/
def Obligations.PollResult : Prop :=
  ∀ s : State,
    (s.state = .idle → s.inp.linkUp = true →
      exec .poll s = .next { s with errCode := .none, seenM0 := false, hdrIdx := 0, state := .scan }) ∧
    (s.state = .idle → s.inp.linkUp = false →
      exec .poll s = .next { s with
        errCode := .linkFatal, irqSet := s.irqSet ||| 0x20, reqValid := false, encRdy := false, seenM0 := false,
        hdrIdx := 0, state := .idle }) ∧
    (s.state ≠ .idle → exec .poll s = .next { s with irqSet := s.irqSet ||| 0x40 })

/-- READ (43_transfer_engine.md R143): starts the decode path of a live DeviceWrites Request that fits, fails the cycle if
it does not fit, is rejected otherwise; nothing else changes. -/
def Obligations.ReadResult : Prop :=
  ∀ s : State,
    (s.state = .hdrDecoded → s.reqDir = 1 → s.reqH.toNat * s.reqW.toNat * nch s.reqFmt ≤ s.bufBytes →
      exec .read s = .next { s with xferCount := 0, state := .reading }) ∧
    (s.state = .hdrDecoded → s.reqDir = 1 → s.bufBytes < s.reqH.toNat * s.reqW.toNat * nch s.reqFmt →
      exec .read s = .next { s with
        errCode := .bufOverflow, irqSet := s.irqSet ||| 0x04, reqValid := false, encRdy := false, state := .idle }) ∧
    ((s.state ≠ .hdrDecoded ∨ s.reqDir ≠ 1) → exec .read s = .next { s with irqSet := s.irqSet ||| 0x40 })

/-- WRITE (43_transfer_engine.md R144): starts the encode path of a live DeviceReads Request with a legal source, is
rejected otherwise, the Request staying as it is; nothing else changes. -/
def Obligations.WriteResult : Prop :=
  ∀ s : State,
    (s.state = .hdrDecoded → s.reqDir = 2 →
      ((s.srcC = 1 ∨ s.srcC = 3) ∧ s.srcH ≠ 0 ∧ s.srcW ≠ 0 ∧
        s.srcH.toNat * s.srcW.toNat * s.srcC.toNat ≤ s.bufBytes) →
      exec .write s = .next { s with xferCount := 0, encRdy := false, state := .writing }) ∧
    (¬(s.state = .hdrDecoded ∧ s.reqDir = 2 ∧
        ((s.srcC = 1 ∨ s.srcC = 3) ∧ s.srcH ≠ 0 ∧ s.srcW ≠ 0 ∧
          s.srcH.toNat * s.srcW.toNat * s.srcC.toNat ≤ s.bufBytes)) →
      exec .write s = .next { s with irqSet := s.irqSet ||| 0x40 })

/-- CANCEL (43_transfer_engine.md R145): ends a scan or drops a decoded Request, is rejected elsewhere, nothing else changes;
and no byte is taken in the cycle in which it is written to the scanner. -/
def Obligations.CancelResult : Prop :=
  ∀ s : State,
    ((s.state = .scan ∨ s.state = .hdrDecoded) →
      exec .cancel s = .next { s with
        errCode := .cancelled, irqSet := s.irqSet ||| 0x10, reqValid := false, seenM0 := false, hdrIdx := 0,
        state := .idle }) ∧
    (¬(s.state = .scan ∨ s.state = .hdrDecoded) → exec .cancel s = .next { s with irqSet := s.irqSet ||| 0x40 }) ∧
    (∀ c : CycleIn, hostCommand c = some .cancel → s.state = .scan → (outputs s c).rxReady = false)

/-- A rejected command changes nothing but IRQ_STATUS.CMDREJ, and a CMD access that is no 4-byte write changes nothing
(43_transfer_engine.md R146, R147): the cycle with the access against the same cycle without it. With the link down every
word but POLL is rejected. -/
def Obligations.RejectedCommandSetsOnlyCmdrej : Prop :=
  ∀ (s : State) (c : CycleIn) (r : List CycleIn) (v : Word),
    c.rst = false → c.busEn = false →
    ∃ t0, step (s.fed (c :: r)) = .next t0 ∧
      (((c.linkUp = true ∧ commandAccepted s v = false) ∨ (c.linkUp = false ∧ v ≠ 1)) →
        step (s.fed (withAccess c true true 0 v :: r)) =
          .next { t0 with inp := withAccess c true true 0 v, irqStatus := t0.irqStatus ||| 0x40 }) ∧
      (∀ we w32 : Bool, (we && w32) = false →
        step (s.fed (withAccess c we w32 0 v :: r)) = .next { t0 with inp := withAccess c we w32 0 v })

/-! ### Scanner and header -/

/-- SYNC: the marker's last byte takes the scanner to HDR if the first byte came just before it, is noise to the scanner
otherwise (40_frame_scanner.md R97), and is not looked at outside SCAN (R98). That the two-byte code runs in the cycle of its
last byte is the model's choice (notes/assumptions/13.md). -/
def Obligations.SyncResult : Prop :=
  ∀ s : State,
    (s.state = .scan → s.seenM0 = true →
      exec .sync s = .next { s with scanCount := s.scanCount + 1, state := .hdr, hdrIdx := 0, seenM0 := false }) ∧
    (s.state = .scan → s.seenM0 = false → exec .sync s = .next { s with scanCount := s.scanCount + 1 }) ∧
    (s.state ≠ .scan → exec .sync s = .next s)

/-- A byte that reaches the scanner (40_frame_scanner.md R97), whatever the byte, the time-out and the host access: the cycle
with the byte against the same cycle without it. -/
def Obligations.ScanByteStep : Prop :=
  ∀ (s : State) (c : CycleIn) (r : List CycleIn) (b : Byte),
    s.state = .scan → undisturbed c = true → c.rxValid = false →
    ∃ t0, step (s.fed (c :: r)) = .next t0 ∧
      (s.seenM0 = true → b = 0x54 →
        step (s.fed ({ c with rxValid := true, rxData := b } :: r)) = .next { t0 with
          inp := { c with rxValid := true, rxData := b }, scanCount := s.scanCount + 1, state := .hdr, hdrIdx := 0,
          seenM0 := false }) ∧
      (¬(s.seenM0 = true ∧ b = 0x54) →
        step (s.fed ({ c with rxValid := true, rxData := b } :: r)) = .next { t0 with
          inp := { c with rxValid := true, rxData := b }, scanCount := s.scanCount + 1,
          seenM0 := decide (b = 0x53) })

/-- The scanner finds the first marker pair and no other (40_frame_scanner.md R99, R101): through any bytes without the pair
it stays in SCAN, and the pair after them takes it to HDR, every byte counted, whatever idle cycles, time-outs and host
accesses other than CANCEL come with the bytes. -/
def Obligations.ScannerFindsFirstMarker : Prop :=
  ∀ (s : State) (bs : List Byte) (cs : List CycleIn),
    s.state = .scan → s.seenM0 = false → hasMarker bs = false → (∀ c ∈ cs, undisturbed c = true) →
    (offeredBytes cs = bs →
      ∃ t, runCycles cs.length (s.fed cs) = .next t ∧ t.state = .scan ∧
        t.scanCount = s.scanCount + BitVec.ofNat 32 bs.length ∧ t.seenM0 = decide (bs.getLast? = some 0x53)) ∧
    (offeredBytes cs = bs ++ [0x53, 0x54] → endsOffering cs = true →
      ∃ t, runCycles cs.length (s.fed cs) = .next t ∧ t.state = .hdr ∧ t.hdrIdx = 0 ∧
        t.scanCount = s.scanCount + BitVec.ofNat 32 (bs.length + 2) ∧ t.seenM0 = false)

/-- HDR completes the header (40_frame_scanner.md R103 to R105): the first field that fails in wire order decides the one
error, then the size guard (R113), then acceptance (R112). That HDR runs in the cycle of the header's last byte, that it
writes all of HDR_RAW from its operands, and that run anywhere else it does nothing, is the model's choice
(notes/assumptions/13.md). -/
def Obligations.HdrResult : Prop :=
  ∀ (s : State) (dir : Byte) (h w : Half) (fmt : Byte),
    (¬(s.state = .hdr ∧ s.hdrIdx = 5) → exec (.hdr dir h w fmt) s = .next s) ∧
    (s.state = .hdr → s.hdrIdx = 5 → (dir ≠ 1 ∧ dir ≠ 2) →
      exec (.hdr dir h w fmt) s = .next { s with
        hdrRaw := headerBytes dir h w fmt, hdrIdx := 0, errCode := .unknownDirection,
        resyncCount := s.resyncCount + 1, irqSet := s.irqSet ||| 0x08, seenM0 := false, state := .scan }) ∧
    (s.state = .hdr → s.hdrIdx = 5 → (dir = 1 ∨ dir = 2) → (h = 0 ∨ w = 0) →
      exec (.hdr dir h w fmt) s = .next { s with
        hdrRaw := headerBytes dir h w fmt, hdrIdx := 0, errCode := .zeroDimension,
        resyncCount := s.resyncCount + 1, irqSet := s.irqSet ||| 0x08, seenM0 := false, state := .scan }) ∧
    (s.state = .hdr → s.hdrIdx = 5 → (dir = 1 ∨ dir = 2) → (h ≠ 0 ∧ w ≠ 0) → (fmt ≠ 1 ∧ fmt ≠ 2 ∧ fmt ≠ 3) →
      exec (.hdr dir h w fmt) s = .next { s with
        hdrRaw := headerBytes dir h w fmt, hdrIdx := 0, errCode := .unknownFormat,
        resyncCount := s.resyncCount + 1, irqSet := s.irqSet ||| 0x08, seenM0 := false, state := .scan }) ∧
    (s.state = .hdr → s.hdrIdx = 5 → (dir = 1 ∨ dir = 2) → (h ≠ 0 ∧ w ≠ 0) → (fmt = 1 ∨ fmt = 2 ∨ fmt = 3) →
      4294967295 < h.toNat * w.toNat * bpp (fmt.setWidth 2) →
      exec (.hdr dir h w fmt) s = .next { s with
        hdrRaw := headerBytes dir h w fmt, hdrIdx := 0, reqDir := dir.setWidth 2, reqH := h, reqW := w,
        reqFmt := fmt.setWidth 2, payloadSize := 0, errCode := .sizeOverflow, irqSet := s.irqSet ||| 0x04,
        reqValid := false, encRdy := false, state := .idle }) ∧
    (s.state = .hdr → s.hdrIdx = 5 → (dir = 1 ∨ dir = 2) → (h ≠ 0 ∧ w ≠ 0) → (fmt = 1 ∨ fmt = 2 ∨ fmt = 3) →
      h.toNat * w.toNat * bpp (fmt.setWidth 2) ≤ 4294967295 →
      exec (.hdr dir h w fmt) s = .next { s with
        hdrRaw := headerBytes dir h w fmt, hdrIdx := 0, reqDir := dir.setWidth 2, reqH := h, reqW := w,
        reqFmt := fmt.setWidth 2, payloadSize := BitVec.ofNat 32 (h.toNat * w.toNat * bpp (fmt.setWidth 2)),
        reqValid := true, irqSet := s.irqSet ||| 0x01, state := .hdrDecoded })

/-- The direction codes at frame offset 2 (30_encoding.md R82, 40_frame_scanner.md R103): the byte is stored and the header
goes on. That a direction code run anywhere else does nothing is the model's choice (notes/assumptions/13.md). -/
def Obligations.DirectionCodeResult : Prop :=
  ∀ s : State,
    (s.state = .hdr → s.hdrIdx = 0 →
      exec .dirDeviceWrites s = .next { s with hdrRaw := { s.hdrRaw with b0 := 0x01 }, hdrIdx := 1 } ∧
      exec .dirDeviceReads s = .next { s with hdrRaw := { s.hdrRaw with b0 := 0x02 }, hdrIdx := 1 }) ∧
    (¬(s.state = .hdr ∧ s.hdrIdx = 0) → exec .dirDeviceWrites s = .next s ∧ exec .dirDeviceReads s = .next s)

/-- No field is checked before the sixth byte (40_frame_scanner.md R103, R106): each of the first five field bytes, whatever
its value, a marker byte or a reserved direction included, is stored and counted and nothing else, whatever the host access:
the cycle with the byte against the same cycle without it. -/
def Obligations.FieldBytesStoredUnchecked : Prop :=
  ∀ (s : State) (c : CycleIn) (r : List CycleIn) (b : Byte),
    s.state = .hdr → s.hdrIdx ≠ 5 → linked c = true → c.rxTimeout = false → c.rxValid = false →
    ∃ t0, step (s.fed (c :: r)) = .next t0 ∧ t0.state = .hdr ∧ t0.errCode = s.errCode ∧
      step (s.fed ({ c with rxValid := true, rxData := b } :: r)) = .next { t0 with
        inp := { c with rxValid := true, rxData := b }, hdrRaw := s.hdrRaw.set s.hdrIdx b, hdrIdx := s.hdrIdx + 1 }

/-- The table of 40_frame_scanner.md R107: what a time-out does in HDR, against the same cycle without it. With no byte it
resynchronizes; with the byte that completes a read unit it is ignored; with the first byte of a two-byte unit it
resynchronizes after the byte is stored. -/
def Obligations.HeaderTimeout : Prop :=
  ∀ (s : State) (c : CycleIn) (r : List CycleIn),
    s.state = .hdr → linked c = true → c.rxTimeout = false →
    ∃ t0, step (s.fed (c :: r)) = .next t0 ∧
      ((c.rxValid = false ∨ s.hdrIdx = 1 ∨ s.hdrIdx = 3) →
        t0.state = .hdr ∧
        t0.hdrRaw = (if c.rxValid = true then s.hdrRaw.set s.hdrIdx c.rxData else s.hdrRaw) ∧
        step (s.fed ({ c with rxTimeout := true } :: r)) = .next { t0 with
          inp := { c with rxTimeout := true }, errCode := .incompleteHeader, resyncCount := t0.resyncCount + 1,
          irqStatus := t0.irqStatus ||| 0x08, seenM0 := false, hdrIdx := 0, state := .scan }) ∧
      (c.rxValid = true → s.hdrIdx ≠ 1 → s.hdrIdx ≠ 3 →
        step (s.fed ({ c with rxTimeout := true } :: r)) = .next { t0 with inp := { c with rxTimeout := true } })

/-- The payload size and its guard's boundaries (40_frame_scanner.md R110, R111). -/
def Obligations.SizeGuardBoundaries : Prop :=
  (∀ h w : Half,
    payloadBytes h w 1 = h.toNat * w.toNat ∧ payloadBytes h w 2 = 2 * (h.toNat * w.toNat) ∧
    payloadBytes h w 3 = 3 * (h.toNat * w.toNat) ∧ (∀ f, payloadBytes h w f < 2 ^ 34) ∧
    payloadBytes h w 1 ≤ 4294836225 ∧
    (4294967295 < payloadBytes h w 2 ↔ 2147483647 < h.toNat * w.toNat) ∧
    (4294967295 < payloadBytes h w 3 ↔ 1431655765 < h.toNat * w.toNat)) ∧
  (∀ n : Half, 4294967295 < payloadBytes n n 2 ↔ 46340 < n.toNat) ∧
  payloadBytes 65535 65535 1 = 4294836225 ∧ payloadBytes 46340 46340 2 = 4294791200 ∧
  payloadBytes 65535 65535 2 = 8589672450 ∧ payloadBytes 65535 65535 3 = 12884508675

/-! ### Pixel Decoder -/

/-- FMT_Grayscale and FMT_RGB888 in READING (41_codec_decode.md R116, R118, with R121 for the last byte): the received byte
is stored at index XFER_COUNT of DST_BUF, no other byte changes; nothing else but the count, and at the last byte the
completion. That the format code runs on every payload byte is the model's choice (notes/assumptions/13.md); the premise
ReadingBounds, part of the invariants, shuts out the writes past the buffer of notes/assumptions/14.md. -/
def Obligations.PlainReadResult : Prop :=
  ∀ (s : State) (i : Instr) (f ch : BitVec 2),
    ((i = .fmtGrayscale ∧ f = 1 ∧ ch = 1) ∨ (i = .fmtRGB888 ∧ f = 3 ∧ ch = 3)) →
    s.state = .reading → s.reqFmt = f → ReadingBounds s →
    ∃ m : Memory,
      (∀ a, Memory.read m a = if a = s.xferCount.toNat then some s.inp.rxData else Memory.read s.dstBuf a) ∧
      (s.xferCount + 1 ≠ s.payloadSize → exec i s = .next { s with dstBuf := m, xferCount := s.xferCount + 1 }) ∧
      (s.xferCount + 1 = s.payloadSize → exec i s = .next { s with
        dstBuf := m, xferCount := s.xferCount + 1, dstH := s.reqH, dstW := s.reqW, dstC := ch, reqValid := false,
        irqSet := s.irqSet ||| 0x02, state := .idle })

/-- FMT_RGB565 in READING (41_codec_decode.md R117, R120, with R121 for the last byte): an even byte waits in PEND, an odd one
writes the pixel's three channels at 3i..3i+2 of DST_BUF and no other byte; nothing else but the count, and at the last
byte the completion. That the format code runs on every payload byte is the model's choice (notes/assumptions/13.md); the
premise ReadingBounds, part of the invariants, shuts out the writes past the buffer of notes/assumptions/14.md. -/
def Obligations.PackedReadResult : Prop :=
  ∀ s : State,
    s.state = .reading → s.reqFmt = 2 → ReadingBounds s →
    ∃ (m : Memory) (held : Byte),
      (s.xferCount.toNat % 2 = 0 → held = s.inp.rxData ∧ ∀ a, Memory.read m a = Memory.read s.dstBuf a) ∧
      (s.xferCount.toNat % 2 = 1 → held = s.pend ∧ ∀ a, Memory.read m a =
        if 3 * (s.xferCount.toNat / 2) ≤ a ∧ a < 3 * (s.xferCount.toNat / 2) + 3 then
          [expand5 ((s.pend ++ s.inp.rxData).extractLsb' 11 5), expand6 ((s.pend ++ s.inp.rxData).extractLsb' 5 6),
            expand5 ((s.pend ++ s.inp.rxData).extractLsb' 0 5)][a - 3 * (s.xferCount.toNat / 2)]?
        else Memory.read s.dstBuf a) ∧
      (s.xferCount + 1 ≠ s.payloadSize →
        exec .fmtRGB565 s = .next { s with dstBuf := m, pend := held, xferCount := s.xferCount + 1 }) ∧
      (s.xferCount + 1 = s.payloadSize → exec .fmtRGB565 s = .next { s with
        dstBuf := m, pend := held, xferCount := s.xferCount + 1, dstH := s.reqH, dstW := s.reqW, dstC := 3,
        reqValid := false, irqSet := s.irqSet ||| 0x02, state := .idle })

/-- A format code outside READING and WRITING (30_encoding.md R83; 40_frame_scanner.md R103): at frame offset 7 it does what
the completed header does. That it does nothing anywhere else, nor for a Request of another format, is the model's choice
(notes/assumptions/13.md). -/
def Obligations.FormatCodeElsewhere : Prop :=
  ∀ (s : State) (i : Instr) (f : BitVec 2),
    ((i = .fmtGrayscale ∧ f = 1) ∨ (i = .fmtRGB565 ∧ f = 2) ∨ (i = .fmtRGB888 ∧ f = 3)) →
    (s.state = .hdr → s.hdrIdx = 5 →
      exec i s =
        exec (.hdr s.hdrRaw.b0 (halfOf s.hdrRaw.b1 s.hdrRaw.b2) (halfOf s.hdrRaw.b3 s.hdrRaw.b4) (f.setWidth 8)) s) ∧
    ((s.state = .idle ∨ s.state = .scan ∨ s.state = .hdrDecoded ∨ (s.state = .hdr ∧ s.hdrIdx ≠ 5) ∨
        ((s.state = .reading ∨ s.state = .writing) ∧ s.reqFmt ≠ f)) →
      exec i s = .next s)

/-- Grayscale and RGB888 decode is the identity (41_codec_decode.md R119): whatever idle cycles and host accesses come
between the bytes, and even with a time-out in the last cycle, a complete decode leaves the payload bytes in wire order in DST_BUF and every other byte as it was, and
tags the buffer (R121). -/
def Obligations.PlainDecodeIsIdentity : Prop :=
  ∀ (s : State) (cs : List CycleIn),
    Invariant s → s.state = .reading → (s.reqFmt = 1 ∨ s.reqFmt = 3) → s.xferCount = 0 →
    (∀ c ∈ cs, linked c = true) → (∀ c ∈ cs.dropLast, c.rxTimeout = false) →
    (offeredBytes cs).length = s.payloadSize.toNat → endsOffering cs = true →
    ∃ t, runCycles cs.length (s.fed cs) = .next t ∧ t.state = .idle ∧
      t.dstH = s.reqH ∧ t.dstW = s.reqW ∧ t.dstC.toNat = nch s.reqFmt ∧
      ∀ k, Memory.read t.dstBuf k =
        if k < s.payloadSize.toNat then (offeredBytes cs)[k]? else Memory.read s.dstBuf k

/-- A complete RGB565 decode (41_codec_decode.md R115, R117): pixel i of DST_BUF is the expansion of wire bytes 2i and 2i+1,
and every byte past the decoded buffer is as it was. -/
def Obligations.PackedDecodeExpandsPixels : Prop :=
  ∀ (s : State) (cs : List CycleIn),
    Invariant s → s.state = .reading → s.reqFmt = 2 → s.xferCount = 0 →
    (∀ c ∈ cs, linked c = true) → (∀ c ∈ cs.dropLast, c.rxTimeout = false) →
    (offeredBytes cs).length = s.payloadSize.toNat → endsOffering cs = true →
    ∃ t, runCycles cs.length (s.fed cs) = .next t ∧ t.state = .idle ∧
      t.dstH = s.reqH ∧ t.dstW = s.reqW ∧ t.dstC = 3 ∧
      (∀ i < s.reqH.toNat * s.reqW.toNat, ∀ ch < 3, ∀ b0 b1 : Byte,
        (offeredBytes cs)[2 * i]? = some b0 → (offeredBytes cs)[2 * i + 1]? = some b1 →
        Memory.read t.dstBuf (3 * i + ch) = (unpack565 (b0 ++ b1))[ch]?) ∧
      ∀ k, 3 * (s.reqH.toNat * s.reqW.toNat) ≤ k → Memory.read t.dstBuf k = Memory.read s.dstBuf k

/-- ShortRead (41_codec_decode.md R122): a time-out in READING, against the same cycle without it, is ignored if the decode
completed in that cycle and otherwise fails the cycle. XFER_COUNT keeps the bytes received, the one of this cycle included,
DST_BUF changes only by that byte, and the destination tag is kept. -/
def Obligations.ReadTimeout : Prop :=
  ∀ (s : State) (c : CycleIn) (r : List CycleIn),
    s.state = .reading → s.reqFmt ≠ 0 → linked c = true → c.rxTimeout = false →
    ∃ t0, step (s.fed (c :: r)) = .next t0 ∧
      t0.xferCount = s.xferCount + (if c.rxValid = true then 1 else 0) ∧
      (c.rxValid = false → t0.dstBuf = s.dstBuf) ∧
      (t0.state ≠ .reading →
        step (s.fed ({ c with rxTimeout := true } :: r)) = .next { t0 with inp := { c with rxTimeout := true } }) ∧
      (t0.state = .reading →
        step (s.fed ({ c with rxTimeout := true } :: r)) = .next { t0 with
          inp := { c with rxTimeout := true }, errCode := .shortRead, irqStatus := t0.irqStatus ||| 0x04,
          reqValid := false, encRdy := false, state := .idle } ∧
        t0.dstH = s.dstH ∧ t0.dstW = s.dstW ∧ t0.dstC = s.dstC)

/-! ### Pixel Encoder -/

/-- The format codes in WRITING (42_codec_encode.md R138, with R139 for the last byte): the transmit step sends EncByte of the
count; nothing else but the count and enc_rdy changes, and at the last byte the completion. `txLog`, where the model records
what the sink took, is the model's own field (notes/assumptions/5.md), and that the format code runs at each transmit handshake is the model's
choice (notes/assumptions/13.md). -/
def Obligations.TransmitResult : Prop :=
  ∀ (s : State) (i : Instr) (f : BitVec 2),
    ((i = .fmtGrayscale ∧ f = 1) ∨ (i = .fmtRGB565 ∧ f = 2) ∨ (i = .fmtRGB888 ∧ f = 3)) →
    s.state = .writing → s.reqFmt = f →
    (s.xferCount + 1 ≠ s.payloadSize → exec i s = .next { s with
      encRdy := false, xferCount := s.xferCount + 1, txLog := s.txLog ++ [encByte s s.xferCount.toNat] }) ∧
    (s.xferCount + 1 = s.payloadSize → exec i s = .next { s with
      encRdy := false, xferCount := s.xferCount + 1, txLog := s.txLog ++ [encByte s s.xferCount.toNat],
      reqValid := false, irqSet := s.irqSet ||| 0x02, state := .idle })

/-- The encoder's byte-by-byte form is the sequence E (42_codec_encode.md R136, R137): E has PAYLOAD_SIZE bytes and EncByte(k)
is E[k]; pixel i*W + j takes its bpp bytes of E, rows top to bottom and columns left to right; and the wire bytes of a pixel
are those of the six rows of R131, from its resized channels (R133, R135). -/
def Obligations.EncByteIsEncodedSequence : Prop :=
  (∀ s : State, (s.reqFmt = 1 ∨ s.reqFmt = 2 ∨ s.reqFmt = 3) →
    (encodedSequence s).length = payloadBytes s.reqH s.reqW s.reqFmt ∧
    (∀ k < payloadBytes s.reqH s.reqW s.reqFmt, (encodedSequence s)[k]? = some (encByte s k)) ∧
    ∀ i < s.reqH.toNat, ∀ j < s.reqW.toNat, (pixelBytes s i j).length = bpp s.reqFmt ∧
      ∀ k < bpp s.reqFmt,
        (encodedSequence s)[(i * s.reqW.toNat + j) * bpp s.reqFmt + k]? = (pixelBytes s i j)[k]?) ∧
  ∀ (s : State) (i j : Nat) (q0 q1 q2 : Byte),
    s.srcH ≠ 0 → s.srcW ≠ 0 → i < s.reqH.toNat → j < s.reqW.toNat →
    q0.toNat = resized s i j 0 → q1.toNat = resized s i j 1 → q2.toNat = resized s i j 2 →
    (s.srcC = 1 → s.reqFmt = 1 → pixelBytes s i j = [q0]) ∧
    (s.srcC = 3 → s.reqFmt = 1 →
      (pixelBytes s i j).map (fun b => b.toNat) = [luma q0.toNat q1.toNat q2.toNat]) ∧
    (s.srcC = 1 → s.reqFmt = 2 → pixelBytes s i j = bytes565 q0 q0 q0) ∧
    (s.srcC = 3 → s.reqFmt = 2 → pixelBytes s i j = bytes565 q0 q1 q2) ∧
    (s.srcC = 1 → s.reqFmt = 3 → pixelBytes s i j = [q0, q0, q0]) ∧
    (s.srcC = 3 → s.reqFmt = 3 → pixelBytes s i j = [q0, q1, q2])

/-- The transmit stream of a WRITING phase is E (42_codec_encode.md R125, R137, R138; 20_memory.md R71): however the encoder
draws, the sink stalls and the host accesses the bus (short of a POLL that starts the next cycle), what has been sent is a prefix of E, and all of E
once the engine is IDLE. The stream is read in `txLog`, the model's own record (notes/assumptions/5.md). -/
def Obligations.TransmitStreamIsEncodedSequence : Prop :=
  ∀ (s : State) (cs : List CycleIn),
    Invariant s → s.state = .writing → s.xferCount = 0 →
    (∀ c ∈ cs, linked c = true ∧ c.txFail = false ∧ hostCommand c ≠ some .poll) →
    ∃ t, runCycles cs.length (s.fed cs) = .next t ∧
      ((t.state = .writing ∧ t.xferCount.toNat < s.payloadSize.toNat ∧
          t.txLog = s.txLog ++ (encodedSequence s).take t.xferCount.toNat) ∨
        (t.state = .idle ∧ t.txLog = s.txLog ++ encodedSequence s))

/-- The overlap weights of an output interval sum to the source size (42_codec_encode.md R128). -/
def Obligations.OverlapWeightsSum : Prop :=
  ∀ n m i : Nat, i < m → sumTo n (fun y => overlap n m i y) = n

/-- The resize at every size (42_codec_encode.md R128, R129): the overlap-weighted sum of the source samples, rounded to
nearest with ties up, each sample at its index of SRC_BUF (R126, 20_memory.md R54). Resizing to the same size changes
nothing, and every resized sample is a byte (R130 (a), (d)). -/
def Obligations.ResizeIdentityAndBound : Prop :=
  (∀ (s : State) (i j c : Nat),
    resized s i j c =
      (2 * (∑ y ∈ Finset.range s.srcH.toNat, ∑ x ∈ Finset.range s.srcW.toNat,
          (min ((i + 1) * s.srcH.toNat) ((y + 1) * s.reqH.toNat) - max (i * s.srcH.toNat) (y * s.reqH.toNat)) *
          (min ((j + 1) * s.srcW.toNat) ((x + 1) * s.reqW.toNat) - max (j * s.srcW.toNat) (x * s.reqW.toNat)) *
          sample s y x c) +
        s.srcH.toNat * s.srcW.toNat) / (2 * (s.srcH.toNat * s.srcW.toNat))) ∧
  (∀ (s : State) (y x c : Nat),
    sample s y x c = (s.bufferByte .src ((y * s.srcW.toNat + x) * s.srcC.toNat + c)).toNat) ∧
  ∀ (s : State) (i j c : Nat), s.srcH ≠ 0 → s.srcW ≠ 0 → i < s.reqH.toNat → j < s.reqW.toNat →
    (s.srcH = s.reqH → s.srcW = s.reqW → resized s i j c = sample s i j c) ∧ resized s i j c ≤ 255

/-- Whole-factor resizing (42_codec_encode.md R130 (b), (c)): down, the rounded mean of each block; up, replication. -/
def Obligations.ResizeByWholeFactors : Prop :=
  ∀ (s : State) (a b i j c : Nat), 0 < a → 0 < b → s.srcH ≠ 0 → s.srcW ≠ 0 → i < s.reqH.toNat → j < s.reqW.toNat →
    (s.srcH.toNat = a * s.reqH.toNat → s.srcW.toNat = b * s.reqW.toNat →
      resized s i j c = rhu (sumTo a fun y => sumTo b fun x => sample s (i * a + y) (j * b + x) c) (a * b)) ∧
    (s.reqH.toNat = a * s.srcH.toNat → s.reqW.toNat = b * s.srcW.toNat →
      resized s i j c = sample s (i / a) (j / b) c)

/-- Luma (42_codec_encode.md R132): gray stays gray, the result is a byte, and the rule's examples. -/
def Obligations.LumaProperties : Prop :=
  (∀ r g b : Nat, luma r g b = (4899 * r + 9617 * g + 1868 * b + 8192) / 16384) ∧
  (∀ v : Nat, luma v v v = v) ∧
  (∀ r g b : Nat, r ≤ 255 → g ≤ 255 → b ≤ 255 → luma r g b ≤ 255) ∧
  luma 255 0 0 = 76 ∧ luma 0 255 0 = 150 ∧ luma 0 0 255 = 29 ∧ luma 255 255 255 = 255 ∧ luma 100 150 200 = 141

/-- RGB565 widening and packing (41_codec_decode.md R120, 42_codec_encode.md R134): the widening puts the field at the top and
its own top bits below, so it maps full scale to full scale, keeps the order and truncates back to the field; the packing
truncates, sends the high byte first, and inverts the widening on every 16-bit word. -/
def Obligations.PackInvertsUnpack : Prop :=
  (∀ v : BitVec 5, (expand5 v).toNat = 8 * v.toNat + v.toNat / 4) ∧
  (∀ v : BitVec 6, (expand6 v).toNat = 4 * v.toNat + v.toNat / 16) ∧
  (expand5 0 = 0 ∧ expand5 31 = 255 ∧ expand6 0 = 0 ∧ expand6 63 = 255) ∧
  (∀ v w : BitVec 5, v < w → expand5 v < expand5 w) ∧ (∀ v w : BitVec 6, v < w → expand6 v < expand6 w) ∧
  (∀ v : BitVec 5, (expand5 v >>> 3).setWidth 5 = v) ∧ (∀ v : BitVec 6, (expand6 v >>> 2).setWidth 6 = v) ∧
  (∀ r g b : Byte, (pack565 r g b).toNat = r.toNat / 8 * 2048 + g.toNat / 4 * 32 + b.toNat / 8 ∧
    bytes565 r g b = [(pack565 r g b).extractLsb' 8 8, (pack565 r g b).extractLsb' 0 8]) ∧
  (∀ p : BitVec 16, unpack565 p =
      [expand5 (p.extractLsb' 11 5), expand6 (p.extractLsb' 5 6), expand5 (p.extractLsb' 0 5)] ∧
    pack565 (expand5 (p.extractLsb' 11 5)) (expand6 (p.extractLsb' 5 6)) (expand5 (p.extractLsb' 0 5)) = p) ∧
  pack565 255 0 0 = 0xF800 ∧ pack565 8 8 8 = 0x0841 ∧ pack565 0x12 0x34 0x56 = 0x11AA ∧ pack565 7 3 7 = 0x0000

/-- ShortWrite (42_codec_encode.md R140): a write failure in WRITING, against the same cycle without it, is ignored if the
encode completed in that cycle and otherwise fails the cycle. XFER_COUNT keeps the bytes the sink accepted, the one of this
cycle included. -/
def Obligations.WriteFailure : Prop :=
  ∀ (s : State) (c : CycleIn) (r : List CycleIn),
    s.state = .writing → linked c = true → c.txFail = false →
    ∃ t0, step (s.fed (c :: r)) = .next t0 ∧
      t0.xferCount = s.xferCount + (if s.encRdy = true ∧ c.txReady = true then 1 else 0) ∧
      (t0.state ≠ .writing →
        step (s.fed ({ c with txFail := true } :: r)) = .next { t0 with inp := { c with txFail := true } }) ∧
      (t0.state = .writing →
        step (s.fed ({ c with txFail := true } :: r)) = .next { t0 with
          inp := { c with txFail := true }, errCode := .shortWrite, irqStatus := t0.irqStatus ||| 0x04,
          reqValid := false, encRdy := false, state := .idle })

/-! ### Host bus, buffers and registers -/

/-- Writing the SRC window (20_memory.md R60, R63; 70_reset_and_hazards.md R192): a 1-byte write stores one byte, an aligned
4-byte write stores the bytes that exist, lowest first, and reads back; a misaligned one and any write while the cycle began
in WRITING store nothing. Said of the write itself, and of the whole step: the cycle with the write against the same cycle
without it differs in those bytes of SRC_BUF alone. -/
def Obligations.SourceWindowWrite : Prop :=
  (∀ (s0 : EngineState) (a v : Word) (i : Nat) (s : State), regionOf a = .src i →
    (s0 = .writing → ∀ w32, dataWrite s0 w32 a v s = s) ∧
    (i % 4 ≠ 0 → dataWrite s0 true a v s = s) ∧
    (s0 ≠ .writing → ∃ m, dataWrite s0 false a v s = { s with srcBuf := m } ∧
      ∀ k, Memory.read m k = if k = i ∧ k < s.bufBytes then some (v.extractLsb' 0 8) else Memory.read s.srcBuf k) ∧
    (s0 ≠ .writing → i % 4 = 0 → ∃ m, dataWrite s0 true a v s = { s with srcBuf := m } ∧
      (∀ k, Memory.read m k =
        if i ≤ k ∧ k < i + 4 ∧ k < s.bufBytes then some (v.extractLsb' (8 * (k - i)) 8) else Memory.read s.srcBuf k) ∧
      (i + 3 < s.bufBytes → busValue { s with srcBuf := m } true a = v))) ∧
  ∀ (s : State) (c : CycleIn) (r : List CycleIn) (a v : Word),
    c.rst = false → c.busEn = false → 0x02000000 ≤ a.toNat → a.toNat < 0x03000000 →
    ∃ t0, step (s.fed (c :: r)) = .next t0 ∧
      (s.state = .writing → ∀ w32,
        step (s.fed (withAccess c true w32 a v :: r)) = .next { t0 with inp := withAccess c true w32 a v }) ∧
      (a.toNat % 4 ≠ 0 →
        step (s.fed (withAccess c true true a v :: r)) = .next { t0 with inp := withAccess c true true a v }) ∧
      (s.state ≠ .writing →
        ∃ m, step (s.fed (withAccess c true false a v :: r)) = .next { t0 with
            inp := withAccess c true false a v, srcBuf := m } ∧
          ∀ k, Memory.read m k =
            if k = a.toNat - 0x02000000 ∧ k < s.bufBytes then some (v.extractLsb' 0 8) else Memory.read s.srcBuf k) ∧
      (s.state ≠ .writing → a.toNat % 4 = 0 →
        ∃ m, step (s.fed (withAccess c true true a v :: r)) = .next { t0 with
            inp := withAccess c true true a v, srcBuf := m } ∧
          (∀ k, Memory.read m k =
            if a.toNat - 0x02000000 ≤ k ∧ k < a.toNat - 0x02000000 + 4 ∧ k < s.bufBytes then
              some (v.extractLsb' (8 * (k - (a.toNat - 0x02000000))) 8)
            else Memory.read s.srcBuf k) ∧
          (a.toNat - 0x02000000 + 3 < s.bufBytes → busValue { t0 with srcBuf := m } true a = v))

/-- Reading the buffer windows (20_memory.md R58, R60): each window shows its own buffer, a 1-byte read gives the byte at its
index, 0 past the end of the buffer; a 4-byte read is the four 1-byte reads, lowest index in the lowest byte (R64), and 0
when it is misaligned (R65). -/
def Obligations.WindowReadPacksBytes : Prop :=
  (∀ (s : State) (w32 : Bool) (a : Word),
    (0x01000000 ≤ a.toNat → a.toNat < 0x02000000 →
      busValue s w32 a = windowRead s .dst w32 (a.toNat - 0x01000000)) ∧
    (0x02000000 ≤ a.toNat → a.toNat < 0x03000000 →
      busValue s w32 a = windowRead s .src w32 (a.toNat - 0x02000000))) ∧
  (∀ (s : State) (i : Nat) (b : Byte),
    (Memory.read s.dstBuf i = some b → s.bufferByte .dst i = b) ∧
    (Memory.read s.srcBuf i = some b → s.bufferByte .src i = b)) ∧
  ∀ (s : State) (buf : BufId) (i : Nat),
    (i < s.bufBytes → windowRead s buf false i = (s.bufferByte buf i).setWidth 32) ∧
    (s.bufBytes ≤ i → windowRead s buf false i = 0) ∧
    (i % 4 = 0 → ∀ k < 4,
      ((windowRead s buf true i).extractLsb' (8 * k) 8).setWidth 32 = windowRead s buf false (i + k)) ∧
    (i % 4 ≠ 0 → windowRead s buf true i = 0)

/-- The fields of the read-only and read-write CSRs (10_state.md R39 to R48), each at its bits, and the reserved bits 0; the
numbers that STATE (R24) and ERR_CODE (60_exceptions.md R164) read as; and which reads give a CSR's value and which give 0
(20_memory.md R58, R59). -/
def Obligations.CsrFieldLayout : Prop :=
  ∀ s : State,
    ((csrValue s 0x04).extractLsb' 0 3 = s.state.code ∧ (csrValue s 0x04).getLsbD 3 = s.reqValid ∧
      (csrValue s 0x04).getLsbD 4 = s.linkQ ∧ (csrValue s 0x04).getLsbD 5 = s.seenM0 ∧
      ((csrValue s 0x04).extractLsb' 6 3).toNat = s.hdrIdx.val ∧ (csrValue s 0x04).getLsbD 9 = irqLine s ∧
      (csrValue s 0x04).extractLsb' 10 22 = 0) ∧
    ((csrValue s 0x08).extractLsb' 0 2 = s.reqDir ∧ (csrValue s 0x08).extractLsb' 2 6 = 0 ∧
      (csrValue s 0x08).extractLsb' 8 2 = s.reqFmt ∧ (csrValue s 0x08).extractLsb' 10 22 = 0) ∧
    ((csrValue s 0x0C).extractLsb' 16 16 = s.reqH ∧ (csrValue s 0x0C).extractLsb' 0 16 = s.reqW) ∧
    (csrValue s 0x10 = s.payloadSize ∧ csrValue s 0x14 = s.xferCount) ∧
    ((csrValue s 0x18).extractLsb' 0 4 = s.errCode.code ∧ (csrValue s 0x18).extractLsb' 4 3 = errClass s.errCode.code ∧
      (csrValue s 0x18).extractLsb' 7 25 = 0) ∧
    ((csrValue s 0x1C).extractLsb' 0 8 = s.hdrRaw.b0 ∧ (csrValue s 0x1C).extractLsb' 8 8 = s.hdrRaw.b1 ∧
      (csrValue s 0x1C).extractLsb' 16 8 = s.hdrRaw.b2 ∧ (csrValue s 0x1C).extractLsb' 24 8 = s.hdrRaw.b3) ∧
    ((csrValue s 0x20).extractLsb' 0 8 = s.hdrRaw.b4 ∧ (csrValue s 0x20).extractLsb' 8 8 = s.hdrRaw.b5 ∧
      (csrValue s 0x20).extractLsb' 16 16 = 0) ∧
    (csrValue s 0x24 = s.resyncCount ∧ csrValue s 0x28 = s.scanCount) ∧
    (csrValue s 0x2C = s.irqStatus.setWidth 32 ∧ csrValue s 0x30 = s.irqEnable.setWidth 32) ∧
    ((csrValue s 0x34).extractLsb' 16 16 = s.srcH ∧ (csrValue s 0x34).extractLsb' 0 16 = s.srcW) ∧
    csrValue s 0x38 = s.srcC.setWidth 32 ∧
    ((csrValue s 0x3C).extractLsb' 16 16 = s.dstH ∧ (csrValue s 0x3C).extractLsb' 0 16 = s.dstW) ∧
    csrValue s 0x40 = s.dstC.setWidth 32 ∧
    (s.bufBytes < 4294967296 → (csrValue s 0x44).toNat = s.bufBytes) ∧
    csrValue s 0x00 = 0 ∧
    (EngineState.idle.code = 0 ∧ EngineState.scan.code = 1 ∧ EngineState.hdr.code = 2 ∧ EngineState.hdrDecoded.code = 3 ∧
      EngineState.reading.code = 4 ∧ EngineState.writing.code = 5) ∧
    (ErrCode.none.code = 0 ∧ ErrCode.incompleteHeader.code = 1 ∧ ErrCode.unknownDirection.code = 2 ∧
      ErrCode.unknownFormat.code = 3 ∧ ErrCode.zeroDimension.code = 4 ∧ ErrCode.sizeOverflow.code = 5 ∧
      ErrCode.shortRead.code = 6 ∧ ErrCode.shortWrite.code = 7 ∧ ErrCode.bufOverflow.code = 8 ∧
      ErrCode.linkFatal.code = 9 ∧ ErrCode.cancelled.code = 10) ∧
    (∀ a : Word, a.toNat % 4 = 0 → a.toNat ≤ 0x44 → busValue s true a = csrValue s a.toNat) ∧
    (∀ a : Word, a.toNat < 0x01000000 → busValue s false a = 0) ∧
    (∀ a : Word, a.toNat < 0x01000000 → (a.toNat % 4 ≠ 0 ∨ 0x44 < a.toNat) → busValue s true a = 0) ∧
    (∀ (w32 : Bool) (a : Word), 0x03000000 ≤ a.toNat → busValue s w32 a = 0)

/-- A read access has no side effect (10_state.md R22, 20_memory.md R67): the cycle with the read differs from the same cycle
without it in `bus_rdata` alone, which is the value at the start of the cycle. In a cycle without a read `bus_rdata` is 0. -/
def Obligations.BusReadHasNoSideEffect : Prop :=
  ∀ (s : State) (c : CycleIn) (r : List CycleIn) (w32 : Bool) (a v : Word),
    (c.busEn = false →
      ∃ t0, step (s.fed (c :: r)) = .next t0 ∧ t0.out.busRdata = 0 ∧
        step (s.fed (withAccess c false w32 a v :: r)) = .next { t0 with
          inp := withAccess c false w32 a v, out := { t0.out with busRdata := busValue s w32 a } }) ∧
    (∃ t1, step (s.fed (withAccess c true w32 a v :: r)) = .next t1 ∧ t1.out.busRdata = 0)

/-- Writes to read-only, unlisted, sub-word or misaligned CSR addresses, to the DST window, to reserved ranges and misaligned
window writes do nothing and raise no error (20_memory.md R58 to R60). -/
def Obligations.IgnoredWritesDoNothing : Prop :=
  ∀ (s : State) (c : CycleIn) (r : List CycleIn) (w32 : Bool) (a v : Word), c.busEn = false → ignoredWrite w32 a = true →
    ∃ t0, step (s.fed (c :: r)) = .next t0 ∧
      step (s.fed (withAccess c true w32 a v :: r)) = .next { t0 with inp := withAccess c true w32 a v }

/-- The three plain read-write registers (10_state.md R46, R47): IRQ_ENABLE, SRC_DIM and SRC_CH store the bits written, read
them back with reserved bits 0, and the source descriptor is locked in a cycle that starts in WRITING. The cycle with the
write against the same cycle without it differs in that register alone. -/
def Obligations.WritableRegisters : Prop :=
  ∀ (s : State) (c : CycleIn) (r : List CycleIn) (v : Word), c.rst = false →
    (c.busEn = false →
      ∃ t0, step (s.fed (c :: r)) = .next t0 ∧
        step (s.fed (withAccess c true true 0x30 v :: r)) = .next { t0 with
          inp := withAccess c true true 0x30 v, irqEnable := v.setWidth 7 } ∧
        (s.state ≠ .writing →
          step (s.fed (withAccess c true true 0x34 v :: r)) = .next { t0 with
            inp := withAccess c true true 0x34 v, srcH := v.extractLsb' 16 16, srcW := v.extractLsb' 0 16 } ∧
          step (s.fed (withAccess c true true 0x38 v :: r)) = .next { t0 with
            inp := withAccess c true true 0x38 v, srcC := v.extractLsb' 0 2 }) ∧
        (s.state = .writing →
          step (s.fed (withAccess c true true 0x34 v :: r)) = .next { t0 with
            inp := withAccess c true true 0x34 v } ∧
          step (s.fed (withAccess c true true 0x38 v :: r)) = .next { t0 with
            inp := withAccess c true true 0x38 v })) ∧
    (∃ t, step (s.fed (withAccess c true true 0x30 v :: r)) = .next t ∧ csrValue t 0x30 = v &&& 0x7F) ∧
    (∃ t, step (s.fed (withAccess c true true 0x34 v :: r)) = .next t ∧
      csrValue t 0x34 = if s.state = .writing then csrValue s 0x34 else v) ∧
    (∃ t, step (s.fed (withAccess c true true 0x38 v :: r)) = .next t ∧
      csrValue t 0x38 = if s.state = .writing then csrValue s 0x38 else v &&& 3)

/-- Who writes the buffers (20_memory.md R55, R56; 70_reset_and_hazards.md R192): DST_BUF changes only in a cycle in READING
that moves a byte, SRC_BUF and the source descriptor only by a host write in a cycle that does not start in WRITING, and
reset changes neither buffer. -/
def Obligations.BufferWriters : Prop :=
  ∀ s t : State, step s = .next t →
    (¬(s.state = .reading ∧ (currentInput s).rxValid = true ∧ rxReady s (currentInput s) = true) → t.dstBuf = s.dstBuf) ∧
    (((currentInput s).rst = true ∨ s.state = .writing ∨ ¬((currentInput s).busEn = true ∧ (currentInput s).busWe = true)) →
      t.srcBuf = s.srcBuf) ∧
    ((currentInput s).rst = false →
      (s.state = .writing ∨ ¬((currentInput s).busEn = true ∧ (currentInput s).busWe = true)) →
      t.srcH = s.srcH ∧ t.srcW = s.srcW ∧ t.srcC = s.srcC) ∧
    t.bufBytes = s.bufBytes

/-- The Request is immutable while it is live, and the destination tag changes only when a decode completes (10_state.md R27,
R31). -/
def Obligations.RequestAndTagStable : Prop :=
  ∀ s t : State, step s = .next t → (currentInput s).rst = false →
    (s.state ≠ .hdr →
      t.reqDir = s.reqDir ∧ t.reqH = s.reqH ∧ t.reqW = s.reqW ∧ t.reqFmt = s.reqFmt ∧ t.payloadSize = s.payloadSize) ∧
    (¬(s.state = .reading ∧ t.state = .idle ∧ t.xferCount = s.payloadSize) →
      t.dstH = s.dstH ∧ t.dstW = s.dstW ∧ t.dstC = s.dstC)

/-- PEND matters only in READING of an RGB565 payload with an odd count (10_state.md R29): two states that differ in PEND
alone go on alike otherwise. -/
def Obligations.PendMattersOnlyMidPixel : Prop :=
  ∀ (s t : State) (p : Byte), ¬(s.state = .reading ∧ s.reqFmt = 2 ∧ s.xferCount.toNat % 2 = 1) →
    step s = .next t → ∃ q : Byte, step { s with pend := p } = .next { t with pend := q }

/-! ### Interrupts and errors -/

/-- Clearing IRQ_STATUS (60_exceptions.md R176, 10_state.md R45). In any state and whatever else the cycle does, the cycle with
a write of v to IRQ_STATUS ends as the same cycle without it does from the state with the bits of v cleared, so every bit the
cycle sets (HDR, DONE, CYCFAIL, RESYNC, LINKF) ends set; only the outputs, computed at the start, are those of the state
itself. Spelled out: in IDLE the bits written 1 are cleared, and the HDR bit of a header accepted in the cycle stays set. -/
def Obligations.SetWinsOverClear : Prop :=
  ∀ (s : State) (c : CycleIn) (r : List CycleIn) (v : Word),
    (c.rst = false → c.busEn = false →
      ∃ t0, step (({ s with irqStatus := s.irqStatus &&& ~~~(v.setWidth 7) } : State).fed (c :: r)) = .next t0 ∧
        step (s.fed (withAccess c true true 0x2C v :: r)) = .next { t0 with
          inp := withAccess c true true 0x2C v, out := outputs s (withAccess c true true 0x2C v) }) ∧
    (linked c = true → s.state = .idle →
      ∃ t, step (s.fed (withAccess c true true 0x2C v :: r)) = .next t ∧
        t.irqStatus = s.irqStatus &&& ~~~(v.setWidth 7)) ∧
    (linked c = true → s.state = .hdr → s.hdrIdx = 5 → c.rxValid = true →
      headerTarget s.hdrRaw.b0 (halfOf s.hdrRaw.b1 s.hdrRaw.b2) (halfOf s.hdrRaw.b3 s.hdrRaw.b4) c.rxData = .hdrDecoded →
      ∃ t, step (s.fed (withAccess c true true 0x2C v :: r)) = .next t ∧ t.state = .hdrDecoded ∧
        t.irqStatus = (s.irqStatus &&& ~~~(v.setWidth 7)) ||| 0x01)

/-- `irq` is 1 exactly when an enabled bit is pending, and STATUS bit 9 shows it (10_state.md R21, R39). -/
def Obligations.IrqIsEnabledPending : Prop :=
  ∀ (s : State) (c : CycleIn),
    ((outputs s c).irq = true ↔ ∃ i < 7, s.irqStatus.getLsbD i = true ∧ s.irqEnable.getLsbD i = true) ∧
    (statusWord s).getLsbD 9 = (outputs s c).irq

/-- LAST_ERR.CLASS of every code (60_exceptions.md R165). -/
def Obligations.ErrorClasses : Prop :=
  ∀ code : BitVec 4,
    (code.toNat = 0 → errClass code = 0) ∧ (1 ≤ code.toNat → code.toNat ≤ 4 → errClass code = 1) ∧
    (5 ≤ code.toNat → code.toNat ≤ 8 → errClass code = 2) ∧ (code.toNat = 9 → errClass code = 3) ∧
    (code.toNat = 10 → errClass code = 4) ∧ (11 ≤ code.toNat → errClass code = 0)

/-- The link, and a cycle in which nothing happens. Link loss (60_exceptions.md R172): the first cycle with the link down ends
the session from any state, with all it writes and nothing else; while the link stays down in IDLE nothing more happens.
LINK_Q follows the link in every cycle without reset (10_state.md R36). With the link up, a cycle without a bus write, a
handshake, or a time-out or write failure that the state uses keeps every register and buffer but LINK_Q and the draw of
enc_rdy in WRITING (R30). -/
def Obligations.LinkLossIsFatal : Prop :=
  ∀ (s : State) (c : CycleIn) (r : List CycleIn), c.rst = false →
    (c.linkUp = false → c.busEn = false →
      ((s.linkQ = true ∨ s.state ≠ .idle) →
        step (s.fed (c :: r)) = .next { afterPorts s c r with
          errCode := .linkFatal, irqStatus := s.irqStatus ||| 0x20, reqValid := false, encRdy := false, seenM0 := false,
          hdrIdx := 0, state := .idle }) ∧
      (s.linkQ = false → s.state = .idle → step (s.fed (c :: r)) = .next (afterPorts s c r))) ∧
    (∃ t, step (s.fed (c :: r)) = .next t ∧ t.linkQ = c.linkUp) ∧
    (c.linkUp = true → ¬(c.busEn = true ∧ c.busWe = true) → ¬(c.rxValid = true ∧ rxReady s c = true) →
      ¬(txValid s c = true ∧ c.txReady = true) → ((s.state = .hdr ∨ s.state = .reading) → c.rxTimeout = false) →
      (s.state = .writing → c.txFail = false) →
      step (s.fed (c :: r)) = .next { afterPorts s c r with
        encRdy := if s.state = .writing ∧ s.encRdy = false then c.encDraw else s.encRdy })

/-- The counters (10_state.md R34): in every cycle without reset SCAN_COUNT counts the bytes consumed in SCAN and RESYNC_COUNT
the returns from HDR to SCAN, modulo 2^32. -/
def Obligations.CountersCountEvents : Prop :=
  ∀ s t : State, step s = .next t → (currentInput s).rst = false →
    t.scanCount = s.scanCount +
      (if s.state = .scan ∧ (currentInput s).rxValid = true ∧ rxReady s (currentInput s) = true then 1 else 0) ∧
    t.resyncCount = s.resyncCount + (if s.state = .hdr ∧ t.state = .scan then 1 else 0)

/-- Header-level errors never end the protocol cycle (60_exceptions.md R167, R170; 40_frame_scanner.md R109): a header error in
HDR, that is a complete header that is not well formed, a time-out before its read unit completes, or whatever else makes
RESYNC_COUNT change or leads to SCAN, takes the engine to SCAN, records a code 1 to 4, sets RESYNC, clears the scan window,
leaves no Request live and keeps the Request fields and DST_BUF. -/
def Obligations.ResyncStaysInCycle : Prop :=
  ∀ s t : State, Invariant s → step s = .next t → s.state = .hdr →
    ((linked (currentInput s) = true ∧ (currentInput s).rxValid = true ∧ s.hdrIdx = 5 ∧
        (Instr.hdr s.hdrRaw.b0 (halfOf s.hdrRaw.b1 s.hdrRaw.b2) (halfOf s.hdrRaw.b3 s.hdrRaw.b4)
          (currentInput s).rxData).wellFormed = false) ∨
      (linked (currentInput s) = true ∧ (currentInput s).rxTimeout = true ∧
        ((currentInput s).rxValid = false ∨ s.hdrIdx = 1 ∨ s.hdrIdx = 3)) ∨
      ((currentInput s).rst = false ∧ t.resyncCount ≠ s.resyncCount) ∨
      t.state = .scan) →
    t.state = .scan ∧
    (t.errCode = .incompleteHeader ∨ t.errCode = .unknownDirection ∨ t.errCode = .unknownFormat ∨
      t.errCode = .zeroDimension) ∧
    t.irqStatus.getLsbD 3 = true ∧ t.resyncCount = s.resyncCount + 1 ∧ t.reqValid = false ∧ t.seenM0 = false ∧
    t.hdrIdx = 0 ∧ t.reqDir = s.reqDir ∧ t.reqH = s.reqH ∧ t.reqW = s.reqW ∧ t.reqFmt = s.reqFmt ∧
    t.dstBuf = s.dstBuf

/-! ### Reset -/

/-- The reset values (10_state.md R52), with both buffers unlisted and BUF_BYTES the instance's parameter. -/
def Obligations.ResetValues : Prop :=
  let s := State.reset
  s.state = .idle ∧ s.seenM0 = false ∧ s.hdrIdx = 0 ∧ s.hdrRaw = ⟨0, 0, 0, 0, 0, 0⟩ ∧
  s.reqDir = 0 ∧ s.reqFmt = 0 ∧ s.reqH = 0 ∧ s.reqW = 0 ∧ s.reqValid = false ∧ s.payloadSize = 0 ∧ s.xferCount = 0 ∧
  s.pend = 0 ∧ s.encRdy = false ∧ s.dstH = 0 ∧ s.dstW = 0 ∧ s.dstC = 0 ∧ s.srcH = 0 ∧ s.srcW = 0 ∧ s.srcC = 0 ∧
  s.errCode = .none ∧ s.resyncCount = 0 ∧ s.scanCount = 0 ∧ s.irqStatus = 0 ∧ s.irqEnable = 0 ∧ s.linkQ = false ∧
  (∀ buf i, s.bufferByte buf i = Config.unwritten buf i) ∧ 1 ≤ s.bufBytes ∧ s.bufBytes ≤ 16777216

/-- A cycle with `rst = 1` (70_reset_and_hazards.md R184) from any state and with any other inputs: every register at its reset
value, both buffers kept, no byte moved, the bus access without effect. -/
def Obligations.ResetCycle : Prop :=
  ∀ (s : State) (c : CycleIn) (r : List CycleIn), c.rst = true →
    step (s.fed (c :: r)) = .next { State.reset with
      srcBuf := s.srcBuf, dstBuf := s.dstBuf, bufBytes := s.bufBytes, inputs := r, cycle := s.cycle + 1, inp := c,
      out := outputs s c, txLog := s.txLog } ∧
    (outputs s c).rxReady = false ∧ (outputs s c).tx = none

/-! ### The cycle -/

/-- A step runs the instruction its word decodes to (43_transfer_engine.md R149), with what the cycle adds around it: a command
word on the bus, a code completed by a received byte, and the format code of REQ_FMT at a transmit handshake. That a wire code is run by exec in the cycle of its last byte, and a
format code at every payload byte, is the model's choice (notes/assumptions/13.md): R149 speaks of a byte step. -/
def Obligations.StepRunsDecodedInstruction : Prop :=
  ∀ (s : State) (i : Instr), (currentInput s).rst = false →
    (writesCmd (currentInput s) = true → decode (.command (currentInput s).busWdata) = .ok i →
      step s = andThen (exec i (linkPhase (beginCycle s))) fun s2 =>
        andThen (streamPhase s.state s.hdrIdx s2) fun s3 => .next (commit (encoderPhase s3))) ∧
    (∀ s2, (currentInput s).rxValid = true → rxReady s (currentInput s) = true →
      busPhase s.state (beginCycle s) = .next s2 → fetchReceived (currentInput s).rxData s2 = .ok i →
      step s = andThen (exec i s2) fun s3 =>
        .next (commit (encoderPhase
          (if (currentInput s).rxTimeout = true ∧ s3.state = s.state then timeoutStep s.state s.hdrIdx true s3 else s3)))) ∧
    (∀ s2, txValid s (currentInput s) = true → (currentInput s).txReady = true →
      busPhase s.state (beginCycle s) = .next s2 → decode (.format (s.reqFmt.setWidth 8)) = .ok i →
      step s = andThen (exec i s2) fun s3 => .next (commit (encoderPhase (writeFailStep s.state s3))))

/-- The engine has no terminal state and nothing faults (43_transfer_engine.md R151; 60_exceptions.md R180): every step from
every state answers a next state. -/
def Obligations.EveryStepAnswersNext : Prop := ∀ s : State, ∃ t, step s = .next t

/-- The byte ports (10_state.md R17, R19; 42_codec_encode.md R137). `rx_ready` is 1 exactly without reset, with the link up, in
SCAN, HDR or READING, and not in SCAN in the cycle of a CANCEL, so bytes that arrive elsewhere stay with the byte source.
`tx_valid` is 1 exactly without reset, with the link up, in WRITING with the byte ready, and `tx_data` is then
EncByte(XFER_COUNT) (`tx` is none in the other cycles, where it is a don't-care); a byte the sink has not taken is offered
again, the same. Every step drives these outputs, and the bytes sent are the offered ones the sink takes.
The engine is half-duplex (43_transfer_engine.md R150), and no byte handshaken in phase 0 is dropped by the guard of phase
3 (R149): when a byte moves, link loss and the bus access of that cycle leave STATE as it was. -/
def Obligations.HandshakeHalfDuplexAndKept : Prop :=
  (∀ (s : State) (c : CycleIn),
    ((outputs s c).rxReady = true ↔
      c.rst = false ∧ c.linkUp = true ∧ (s.state = .scan ∨ s.state = .hdr ∨ s.state = .reading) ∧
        ¬(s.state = .scan ∧ hostCommand c = some .cancel)) ∧
    (outputs s c).tx =
      (if c.rst = false ∧ c.linkUp = true ∧ s.state = .writing ∧ s.encRdy = true then
        some (encByte s s.xferCount.toNat)
      else none) ∧
    rxReady s c = (outputs s c).rxReady ∧ txValid s c = (outputs s c).tx.isSome) ∧
  (∀ s t : State, step s = .next t →
    t.out = outputs s (currentInput s) ∧
    t.txLog = s.txLog ++ (if (currentInput s).txReady = true then (outputs s (currentInput s)).tx.toList else []) ∧
    ∀ (b : Byte) (c : CycleIn), (outputs s (currentInput s)).tx = some b → (currentInput s).txReady = false →
      t.state = .writing → c.rst = false → c.linkUp = true → (outputs t c).tx = some b) ∧
  ∀ s : State,
    ¬(rxReady s (currentInput s) = true ∧ txValid s (currentInput s) = true) ∧
    ((((currentInput s).rxValid = true ∧ rxReady s (currentInput s) = true) ∨ txValid s (currentInput s) = true) →
      ∃ s2, busPhase s.state (linkPhase (beginCycle s)) = .next s2 ∧ s2.state = s.state)

/-- Events the state does not use are ignored (43_transfer_engine.md R154, 40_frame_scanner.md R101): a time-out outside HDR
and READING, a write failure outside WRITING, an offered byte and its value without `rx_ready`, `tx_ready` without
`tx_valid`. -/
def Obligations.IgnoredEvents : Prop :=
  ∀ (s : State) (c : CycleIn) (r : List CycleIn),
    ∃ t, step (s.fed (c :: r)) = .next t ∧
      (∀ v, s.state ≠ .hdr → s.state ≠ .reading →
        step (s.fed ({ c with rxTimeout := v } :: r)) = .next { t with inp := { c with rxTimeout := v } }) ∧
      (∀ v, s.state ≠ .writing →
        step (s.fed ({ c with txFail := v } :: r)) = .next { t with inp := { c with txFail := v } }) ∧
      (∀ v b, rxReady s c = false →
        step (s.fed ({ c with rxValid := v, rxData := b } :: r)) =
          .next { t with inp := { c with rxValid := v, rxData := b } }) ∧
      (∀ v, txValid s c = false →
        step (s.fed ({ c with txReady := v } :: r)) = .next { t with inp := { c with txReady := v } })

/-- `rd_unit_len` and `rd_unit_rem` (10_state.md R20), row by row. -/
def Obligations.ReadUnitOutputs : Prop :=
  ∀ (s : State) (c : CycleIn),
    (s.state = .scan → (outputs s c).rdUnitLen = 1 ∧ (outputs s c).rdUnitRem = 1) ∧
    (s.state = .hdr → (s.hdrIdx = 0 ∨ s.hdrIdx = 5) → (outputs s c).rdUnitLen = 1 ∧ (outputs s c).rdUnitRem = 1) ∧
    (s.state = .hdr → (s.hdrIdx = 1 ∨ s.hdrIdx = 3) → (outputs s c).rdUnitLen = 2 ∧ (outputs s c).rdUnitRem = 2) ∧
    (s.state = .hdr → (s.hdrIdx = 2 ∨ s.hdrIdx = 4) → (outputs s c).rdUnitLen = 2 ∧ (outputs s c).rdUnitRem = 1) ∧
    (s.state = .reading →
      (outputs s c).rdUnitLen = s.payloadSize ∧ (outputs s c).rdUnitRem = s.payloadSize - s.xferCount) ∧
    ((s.state = .idle ∨ s.state = .hdrDecoded ∨ s.state = .writing) →
      (outputs s c).rdUnitLen = 0 ∧ (outputs s c).rdUnitRem = 0)

/-- The encoder's ready bit (10_state.md R30): in every cycle without reset, it ends as the draw where WRITING goes on and it
was not already held, stays set until the sink takes the byte, and is 0 when the cycle ends outside WRITING, if it was so
before. -/
def Obligations.EncoderReadyBit : Prop :=
  ∀ s t : State, Invariant s → step s = .next t → (currentInput s).rst = false →
    (t.state ≠ .writing → t.encRdy = false) ∧
    (t.state = .writing → s.encRdy = true → (currentInput s).txReady = false → t.encRdy = true) ∧
    (t.state = .writing → (s.encRdy = false ∨ (currentInput s).txReady = true) →
      t.encRdy = (currentInput s).encDraw)

/-- Waits end under the spec's premises (10_state.md R30; 43_transfer_engine.md R158, R159): with the byte source's duty a
header and a READING phase end; with encoder fairness and the byte sink's duty a WRITING phase ends. The host may do
anything meanwhile. -/
def Obligations.WaitsEnd : Prop :=
  ∀ (s : State) (env : Nat → CycleIn), Invariant s →
    (s.state = .hdr → SourceDuty s env → ∃ n t, runUnder env n s = .next t ∧ t.state ≠ .hdr) ∧
    (s.state = .reading → SourceDuty s env → ∃ n t, runUnder env n s = .next t ∧ t.state = .idle) ∧
    (s.state = .writing → EncoderFair s env → SinkDuty s env → ∃ n t, runUnder env n s = .next t ∧ t.state = .idle)

/-! ### Invariants and the transition table -/

/-- The reset state meets the invariants of 43_transfer_engine.md R155. -/
def Obligations.ResetMeetsInvariant : Prop := Invariant State.reset

/-- Every step keeps the invariants of 43_transfer_engine.md R155, the canonical form of the buffers and their bounds. -/
def Obligations.StepKeepsInvariant : Prop := ∀ s t : State, Invariant s → step s = .next t → Invariant t

/-- The transition table R141 of 43_transfer_engine.md is the whole of what a step does to STATE. -/
def Obligations.TransitionTable : Prop :=
  ∀ s t : State, Invariant s → step s = .next t → t.state = tableNext s (currentInput s)
end

