-- ==== Sys2Proof/Laws/Memory.lean ====
section
/-!
SUPPORT. The laws of a buffer's memory: what a read gives after a write, and that every operation keeps the canonical form
and the bound of the buffer.
-/

namespace Sys2Proof.Laws

open Sys2Proof.Machine

theorem read_write_same (m : Memory) (a : Nat) (b : Byte) : Memory.read (Memory.write m a b) a = some b := by
  induction m with
  | nil => simp [Memory.write, Memory.read]
  | cons c m ih =>
    obtain ⟨x, v⟩ := c
    unfold Memory.write
    split
    · simp [Memory.read]
    · split
      · simp [Memory.read]
      · simp only [Memory.read]
        rw [if_neg ‹_›]
        exact ih

theorem read_write_other (m : Memory) {a i : Nat} (b : Byte) (h : i ≠ a) :
    Memory.read (Memory.write m a b) i = Memory.read m i := by
  induction m with
  | nil => simp [Memory.write, Memory.read, h]
  | cons c m ih =>
    obtain ⟨x, v⟩ := c
    unfold Memory.write
    split
    · simp [Memory.read, h]
    · split
      · rename_i hx
        subst hx
        simp [Memory.read, h]
      · simp only [Memory.read, ih]

/-- Read after write, both cases. -/
theorem read_write (m : Memory) (a i : Nat) (b : Byte) :
    Memory.read (Memory.write m a b) i = if i = a then some b else Memory.read m i := by
  split
  · next h => subst h; exact read_write_same m i b
  · next h => exact read_write_other m b h

/-- Storing in a buffer of n bytes changes the one byte, if the buffer has it. -/
theorem read_storeByte (n : Nat) (m : Memory) (a i : Nat) (b : Byte) :
    Memory.read (storeByte n m a b) i = if i = a ∧ a < n then some b else Memory.read m i := by
  unfold storeByte
  split <;> simp_all [read_write]

/-- Storing a byte string changes exactly the bytes it covers inside the buffer. -/
theorem read_storeBytes (n : Nat) (bs : List Byte) : ∀ (m : Memory) (a i : Nat),
    Memory.read (storeBytes n m a bs) i =
      if a ≤ i ∧ i < a + bs.length ∧ i < n then bs[i - a]? else Memory.read m i := by
  induction bs with
  | nil =>
    intro m a i
    simp only [storeBytes, List.length_nil, Nat.add_zero]
    rw [if_neg (by omega)]
  | cons b bs ih =>
    intro m a i
    simp only [storeBytes, ih, read_storeByte, List.length_cons]
    by_cases h : i = a
    · subst h
      by_cases hn : i < n
      · rw [if_neg (by omega), if_pos ⟨rfl, hn⟩, if_pos (by omega)]
        simp
      · rw [if_neg (by omega), if_neg (by omega), if_neg (by omega)]
    · by_cases hc : a + 1 ≤ i ∧ i < a + 1 + bs.length ∧ i < n
      · rw [if_pos hc, if_pos (by omega)]
        have : i - a = (i - (a + 1)) + 1 := by omega
        rw [this, List.getElem?_cons_succ]
      · rw [if_neg hc, if_neg (by omega), if_neg (by omega)]

/-- The head of a canonical memory is below every other index. -/
theorem wf_cons {c d : Host.Cell} {m : Memory} :
    Memory.wf (c :: d :: m) = true ↔ c.1 < d.1 ∧ Memory.wf (d :: m) = true := by
  simp [Memory.wf]

theorem wf_tail {c : Host.Cell} {m : Memory} (h : Memory.wf (c :: m) = true) : Memory.wf m = true := by
  cases m with
  | nil => rfl
  | cons d m => exact (wf_cons.mp h).2

/-- The first index of a memory after a write is the old first or the new one. -/
theorem write_wf (m : Memory) (a : Nat) (b : Byte) (h : Memory.wf m = true) :
    Memory.wf (Memory.write m a b) = true := by
  suffices H : ∀ (m : Memory), Memory.wf m = true →
      Memory.wf (Memory.write m a b) = true ∧
        ∀ k : Nat, k < a → (∀ c ∈ m.head?, k < c.1) → ∀ c ∈ (Memory.write m a b).head?, k < c.1 from (H m h).1
  intro m
  induction m with
  | nil =>
    intro _
    exact ⟨rfl, fun k hk _ c hc => by simp [Memory.write] at hc; subst hc; exact hk⟩
  | cons c m ih =>
    obtain ⟨x, v⟩ := c
    intro hwf
    unfold Memory.write
    split
    · next hlt =>
      refine ⟨wf_cons.mpr ⟨hlt, hwf⟩, fun k hk _ c hc => ?_⟩
      simp at hc
      subst hc
      exact hk
    · split
      · next hxa =>
        subst hxa
        refine ⟨?_, fun k hk _ c hc => ?_⟩
        · cases m with
          | nil => rfl
          | cons d m => exact wf_cons.mpr (wf_cons.mp hwf)
        · simp at hc
          subst hc
          exact hk
      · next h1 h2 =>
        obtain ⟨ihwf, ihead⟩ := ih (wf_tail hwf)
        have hlt : x < a := by omega
        have hm : ∀ c ∈ m.head?, x < c.1 := by
          cases m with
          | nil => simp
          | cons d m =>
            intro c hc
            simp at hc
            subst hc
            exact (wf_cons.mp hwf).1
        refine ⟨?_, fun k _ hk c hc => ?_⟩
        · have := ihead x hlt hm
          cases hw : Memory.write m a b with
          | nil => rfl
          | cons d m' =>
            rw [hw] at this ihwf
            exact wf_cons.mpr ⟨this d (by simp), ihwf⟩
        · simp at hc
          subst hc
          exact hk (x, v) (by simp)

/-- Every memory operation keeps the canonical form. -/
theorem storeByte_wf {n : Nat} {m : Memory} {i : Nat} {b : Byte} (h : Memory.wf m = true) :
    Memory.wf (storeByte n m i b) = true := by
  unfold storeByte
  split
  · exact write_wf m i b h
  · exact h

theorem storeBytes_wf {n : Nat} (bs : List Byte) : ∀ {m : Memory} {i : Nat}, Memory.wf m = true →
    Memory.wf (storeBytes n m i bs) = true := by
  induction bs with
  | nil => intro m i h; exact h
  | cons b bs ih => intro m i h; exact ih (storeByte_wf h)

theorem write_below {n : Nat} {m : Memory} {a : Nat} {b : Byte} (h : Memory.below n m = true) (ha : a < n) :
    Memory.below n (Memory.write m a b) = true := by
  induction m with
  | nil => simp [Memory.write, Memory.below, ha]
  | cons c m ih =>
    obtain ⟨x, v⟩ := c
    simp only [Memory.below, List.all_cons, Bool.and_eq_true, decide_eq_true_eq] at h ih ⊢
    unfold Memory.write
    split
    · simp [h, ha]
    · split
      · simp [h, ha]
      · simp [h.1, ih h.2]

/-- Every memory operation keeps inside the buffer. -/
theorem storeByte_below {n : Nat} {m : Memory} {i : Nat} {b : Byte} (h : Memory.below n m = true) :
    Memory.below n (storeByte n m i b) = true := by
  unfold storeByte
  split
  · exact write_below h ‹_›
  · exact h

theorem storeBytes_below {n : Nat} (bs : List Byte) : ∀ {m : Memory} {i : Nat}, Memory.below n m = true →
    Memory.below n (storeBytes n m i bs) = true := by
  induction bs with
  | nil => intro m i h; exact h
  | cons b bs ih => intro m i h; exact ih (storeByte_below h)

/-- The memories of the reset state are canonical. -/
theorem reset_buffers_wf : Memory.wf State.reset.srcBuf = true ∧ Memory.wf State.reset.dstBuf = true := ⟨rfl, rfl⟩

end Sys2Proof.Laws
end

