-- ==== Sys2Proof/Laws/State.lean ====
section
/-!
SUPPORT. One lemma per field per update, true by the update's definition, so that no later proof unfolds a record update.
-/

namespace Sys2Proof.Laws

open Sys2Proof.Machine

variable (s : State)

/-! ### setIrq -/

@[simp] theorem setIrq_state (b : IrqBit) : (setIrq b s).state = s.state := rfl
@[simp] theorem setIrq_seenM0 (b : IrqBit) : (setIrq b s).seenM0 = s.seenM0 := rfl
@[simp] theorem setIrq_hdrIdx (b : IrqBit) : (setIrq b s).hdrIdx = s.hdrIdx := rfl
@[simp] theorem setIrq_hdrRaw (b : IrqBit) : (setIrq b s).hdrRaw = s.hdrRaw := rfl
@[simp] theorem setIrq_reqDir (b : IrqBit) : (setIrq b s).reqDir = s.reqDir := rfl
@[simp] theorem setIrq_reqH (b : IrqBit) : (setIrq b s).reqH = s.reqH := rfl
@[simp] theorem setIrq_reqW (b : IrqBit) : (setIrq b s).reqW = s.reqW := rfl
@[simp] theorem setIrq_reqFmt (b : IrqBit) : (setIrq b s).reqFmt = s.reqFmt := rfl
@[simp] theorem setIrq_payloadSize (b : IrqBit) : (setIrq b s).payloadSize = s.payloadSize := rfl
@[simp] theorem setIrq_reqValid (b : IrqBit) : (setIrq b s).reqValid = s.reqValid := rfl
@[simp] theorem setIrq_xferCount (b : IrqBit) : (setIrq b s).xferCount = s.xferCount := rfl
@[simp] theorem setIrq_pend (b : IrqBit) : (setIrq b s).pend = s.pend := rfl
@[simp] theorem setIrq_encRdy (b : IrqBit) : (setIrq b s).encRdy = s.encRdy := rfl
@[simp] theorem setIrq_dstH (b : IrqBit) : (setIrq b s).dstH = s.dstH := rfl
@[simp] theorem setIrq_dstW (b : IrqBit) : (setIrq b s).dstW = s.dstW := rfl
@[simp] theorem setIrq_dstC (b : IrqBit) : (setIrq b s).dstC = s.dstC := rfl
@[simp] theorem setIrq_srcH (b : IrqBit) : (setIrq b s).srcH = s.srcH := rfl
@[simp] theorem setIrq_srcW (b : IrqBit) : (setIrq b s).srcW = s.srcW := rfl
@[simp] theorem setIrq_srcC (b : IrqBit) : (setIrq b s).srcC = s.srcC := rfl
@[simp] theorem setIrq_errCode (b : IrqBit) : (setIrq b s).errCode = s.errCode := rfl
@[simp] theorem setIrq_resyncCount (b : IrqBit) : (setIrq b s).resyncCount = s.resyncCount := rfl
@[simp] theorem setIrq_scanCount (b : IrqBit) : (setIrq b s).scanCount = s.scanCount := rfl
@[simp] theorem setIrq_irqStatus (b : IrqBit) : (setIrq b s).irqStatus = s.irqStatus := rfl
@[simp] theorem setIrq_irqEnable (b : IrqBit) : (setIrq b s).irqEnable = s.irqEnable := rfl
@[simp] theorem setIrq_linkQ (b : IrqBit) : (setIrq b s).linkQ = s.linkQ := rfl
@[simp] theorem setIrq_irqSet (b : IrqBit) : (setIrq b s).irqSet = s.irqSet ||| b.mask := rfl
@[simp] theorem setIrq_irqClear (b : IrqBit) : (setIrq b s).irqClear = s.irqClear := rfl
@[simp] theorem setIrq_srcBuf (b : IrqBit) : (setIrq b s).srcBuf = s.srcBuf := rfl
@[simp] theorem setIrq_dstBuf (b : IrqBit) : (setIrq b s).dstBuf = s.dstBuf := rfl
@[simp] theorem setIrq_bufBytes (b : IrqBit) : (setIrq b s).bufBytes = s.bufBytes := rfl
@[simp] theorem setIrq_inputs (b : IrqBit) : (setIrq b s).inputs = s.inputs := rfl
@[simp] theorem setIrq_cycle (b : IrqBit) : (setIrq b s).cycle = s.cycle := rfl
@[simp] theorem setIrq_inp (b : IrqBit) : (setIrq b s).inp = s.inp := rfl
@[simp] theorem setIrq_out (b : IrqBit) : (setIrq b s).out = s.out := rfl
@[simp] theorem setIrq_txLog (b : IrqBit) : (setIrq b s).txLog = s.txLog := rfl

/-! ### clearIrq -/

@[simp] theorem clearIrq_state (v : Word) : (clearIrq v s).state = s.state := rfl
@[simp] theorem clearIrq_seenM0 (v : Word) : (clearIrq v s).seenM0 = s.seenM0 := rfl
@[simp] theorem clearIrq_hdrIdx (v : Word) : (clearIrq v s).hdrIdx = s.hdrIdx := rfl
@[simp] theorem clearIrq_hdrRaw (v : Word) : (clearIrq v s).hdrRaw = s.hdrRaw := rfl
@[simp] theorem clearIrq_reqDir (v : Word) : (clearIrq v s).reqDir = s.reqDir := rfl
@[simp] theorem clearIrq_reqH (v : Word) : (clearIrq v s).reqH = s.reqH := rfl
@[simp] theorem clearIrq_reqW (v : Word) : (clearIrq v s).reqW = s.reqW := rfl
@[simp] theorem clearIrq_reqFmt (v : Word) : (clearIrq v s).reqFmt = s.reqFmt := rfl
@[simp] theorem clearIrq_payloadSize (v : Word) : (clearIrq v s).payloadSize = s.payloadSize := rfl
@[simp] theorem clearIrq_reqValid (v : Word) : (clearIrq v s).reqValid = s.reqValid := rfl
@[simp] theorem clearIrq_xferCount (v : Word) : (clearIrq v s).xferCount = s.xferCount := rfl
@[simp] theorem clearIrq_pend (v : Word) : (clearIrq v s).pend = s.pend := rfl
@[simp] theorem clearIrq_encRdy (v : Word) : (clearIrq v s).encRdy = s.encRdy := rfl
@[simp] theorem clearIrq_dstH (v : Word) : (clearIrq v s).dstH = s.dstH := rfl
@[simp] theorem clearIrq_dstW (v : Word) : (clearIrq v s).dstW = s.dstW := rfl
@[simp] theorem clearIrq_dstC (v : Word) : (clearIrq v s).dstC = s.dstC := rfl
@[simp] theorem clearIrq_srcH (v : Word) : (clearIrq v s).srcH = s.srcH := rfl
@[simp] theorem clearIrq_srcW (v : Word) : (clearIrq v s).srcW = s.srcW := rfl
@[simp] theorem clearIrq_srcC (v : Word) : (clearIrq v s).srcC = s.srcC := rfl
@[simp] theorem clearIrq_errCode (v : Word) : (clearIrq v s).errCode = s.errCode := rfl
@[simp] theorem clearIrq_resyncCount (v : Word) : (clearIrq v s).resyncCount = s.resyncCount := rfl
@[simp] theorem clearIrq_scanCount (v : Word) : (clearIrq v s).scanCount = s.scanCount := rfl
@[simp] theorem clearIrq_irqStatus (v : Word) : (clearIrq v s).irqStatus = s.irqStatus := rfl
@[simp] theorem clearIrq_irqEnable (v : Word) : (clearIrq v s).irqEnable = s.irqEnable := rfl
@[simp] theorem clearIrq_linkQ (v : Word) : (clearIrq v s).linkQ = s.linkQ := rfl
@[simp] theorem clearIrq_irqSet (v : Word) : (clearIrq v s).irqSet = s.irqSet := rfl
@[simp] theorem clearIrq_irqClear (v : Word) : (clearIrq v s).irqClear = s.irqClear ||| v.setWidth 7 := rfl
@[simp] theorem clearIrq_srcBuf (v : Word) : (clearIrq v s).srcBuf = s.srcBuf := rfl
@[simp] theorem clearIrq_dstBuf (v : Word) : (clearIrq v s).dstBuf = s.dstBuf := rfl
@[simp] theorem clearIrq_bufBytes (v : Word) : (clearIrq v s).bufBytes = s.bufBytes := rfl
@[simp] theorem clearIrq_inputs (v : Word) : (clearIrq v s).inputs = s.inputs := rfl
@[simp] theorem clearIrq_cycle (v : Word) : (clearIrq v s).cycle = s.cycle := rfl
@[simp] theorem clearIrq_inp (v : Word) : (clearIrq v s).inp = s.inp := rfl
@[simp] theorem clearIrq_out (v : Word) : (clearIrq v s).out = s.out := rfl
@[simp] theorem clearIrq_txLog (v : Word) : (clearIrq v s).txLog = s.txLog := rfl

/-! ### reject -/

@[simp] theorem reject_state : (reject s).state = s.state := rfl
@[simp] theorem reject_seenM0 : (reject s).seenM0 = s.seenM0 := rfl
@[simp] theorem reject_hdrIdx : (reject s).hdrIdx = s.hdrIdx := rfl
@[simp] theorem reject_hdrRaw : (reject s).hdrRaw = s.hdrRaw := rfl
@[simp] theorem reject_reqDir : (reject s).reqDir = s.reqDir := rfl
@[simp] theorem reject_reqH : (reject s).reqH = s.reqH := rfl
@[simp] theorem reject_reqW : (reject s).reqW = s.reqW := rfl
@[simp] theorem reject_reqFmt : (reject s).reqFmt = s.reqFmt := rfl
@[simp] theorem reject_payloadSize : (reject s).payloadSize = s.payloadSize := rfl
@[simp] theorem reject_reqValid : (reject s).reqValid = s.reqValid := rfl
@[simp] theorem reject_xferCount : (reject s).xferCount = s.xferCount := rfl
@[simp] theorem reject_pend : (reject s).pend = s.pend := rfl
@[simp] theorem reject_encRdy : (reject s).encRdy = s.encRdy := rfl
@[simp] theorem reject_dstH : (reject s).dstH = s.dstH := rfl
@[simp] theorem reject_dstW : (reject s).dstW = s.dstW := rfl
@[simp] theorem reject_dstC : (reject s).dstC = s.dstC := rfl
@[simp] theorem reject_srcH : (reject s).srcH = s.srcH := rfl
@[simp] theorem reject_srcW : (reject s).srcW = s.srcW := rfl
@[simp] theorem reject_srcC : (reject s).srcC = s.srcC := rfl
@[simp] theorem reject_errCode : (reject s).errCode = s.errCode := rfl
@[simp] theorem reject_resyncCount : (reject s).resyncCount = s.resyncCount := rfl
@[simp] theorem reject_scanCount : (reject s).scanCount = s.scanCount := rfl
@[simp] theorem reject_irqStatus : (reject s).irqStatus = s.irqStatus := rfl
@[simp] theorem reject_irqEnable : (reject s).irqEnable = s.irqEnable := rfl
@[simp] theorem reject_linkQ : (reject s).linkQ = s.linkQ := rfl
@[simp] theorem reject_irqSet : (reject s).irqSet = s.irqSet ||| 0x40 := rfl
@[simp] theorem reject_irqClear : (reject s).irqClear = s.irqClear := rfl
@[simp] theorem reject_srcBuf : (reject s).srcBuf = s.srcBuf := rfl
@[simp] theorem reject_dstBuf : (reject s).dstBuf = s.dstBuf := rfl
@[simp] theorem reject_bufBytes : (reject s).bufBytes = s.bufBytes := rfl
@[simp] theorem reject_inputs : (reject s).inputs = s.inputs := rfl
@[simp] theorem reject_cycle : (reject s).cycle = s.cycle := rfl
@[simp] theorem reject_inp : (reject s).inp = s.inp := rfl
@[simp] theorem reject_out : (reject s).out = s.out := rfl
@[simp] theorem reject_txLog : (reject s).txLog = s.txLog := rfl

/-! ### commit -/

@[simp] theorem commit_state : (commit s).state = s.state := rfl
@[simp] theorem commit_seenM0 : (commit s).seenM0 = s.seenM0 := rfl
@[simp] theorem commit_hdrIdx : (commit s).hdrIdx = s.hdrIdx := rfl
@[simp] theorem commit_hdrRaw : (commit s).hdrRaw = s.hdrRaw := rfl
@[simp] theorem commit_reqDir : (commit s).reqDir = s.reqDir := rfl
@[simp] theorem commit_reqH : (commit s).reqH = s.reqH := rfl
@[simp] theorem commit_reqW : (commit s).reqW = s.reqW := rfl
@[simp] theorem commit_reqFmt : (commit s).reqFmt = s.reqFmt := rfl
@[simp] theorem commit_payloadSize : (commit s).payloadSize = s.payloadSize := rfl
@[simp] theorem commit_reqValid : (commit s).reqValid = s.reqValid := rfl
@[simp] theorem commit_xferCount : (commit s).xferCount = s.xferCount := rfl
@[simp] theorem commit_pend : (commit s).pend = s.pend := rfl
@[simp] theorem commit_encRdy : (commit s).encRdy = s.encRdy := rfl
@[simp] theorem commit_dstH : (commit s).dstH = s.dstH := rfl
@[simp] theorem commit_dstW : (commit s).dstW = s.dstW := rfl
@[simp] theorem commit_dstC : (commit s).dstC = s.dstC := rfl
@[simp] theorem commit_srcH : (commit s).srcH = s.srcH := rfl
@[simp] theorem commit_srcW : (commit s).srcW = s.srcW := rfl
@[simp] theorem commit_srcC : (commit s).srcC = s.srcC := rfl
@[simp] theorem commit_errCode : (commit s).errCode = s.errCode := rfl
@[simp] theorem commit_resyncCount : (commit s).resyncCount = s.resyncCount := rfl
@[simp] theorem commit_scanCount : (commit s).scanCount = s.scanCount := rfl
@[simp] theorem commit_irqStatus : (commit s).irqStatus = committedIrq s.irqStatus s.irqSet s.irqClear := rfl
@[simp] theorem commit_irqEnable : (commit s).irqEnable = s.irqEnable := rfl
@[simp] theorem commit_linkQ : (commit s).linkQ = s.inp.linkUp := rfl
@[simp] theorem commit_irqSet : (commit s).irqSet = 0 := rfl
@[simp] theorem commit_irqClear : (commit s).irqClear = 0 := rfl
@[simp] theorem commit_srcBuf : (commit s).srcBuf = s.srcBuf := rfl
@[simp] theorem commit_dstBuf : (commit s).dstBuf = s.dstBuf := rfl
@[simp] theorem commit_bufBytes : (commit s).bufBytes = s.bufBytes := rfl
@[simp] theorem commit_inputs : (commit s).inputs = s.inputs := rfl
@[simp] theorem commit_cycle : (commit s).cycle = s.cycle := rfl
@[simp] theorem commit_inp : (commit s).inp = s.inp := rfl
@[simp] theorem commit_out : (commit s).out = s.out := rfl
@[simp] theorem commit_txLog : (commit s).txLog = s.txLog := rfl

/-! ### beginCycle -/

@[simp] theorem beginCycle_state : (beginCycle s).state = s.state := rfl
@[simp] theorem beginCycle_seenM0 : (beginCycle s).seenM0 = s.seenM0 := rfl
@[simp] theorem beginCycle_hdrIdx : (beginCycle s).hdrIdx = s.hdrIdx := rfl
@[simp] theorem beginCycle_hdrRaw : (beginCycle s).hdrRaw = s.hdrRaw := rfl
@[simp] theorem beginCycle_reqDir : (beginCycle s).reqDir = s.reqDir := rfl
@[simp] theorem beginCycle_reqH : (beginCycle s).reqH = s.reqH := rfl
@[simp] theorem beginCycle_reqW : (beginCycle s).reqW = s.reqW := rfl
@[simp] theorem beginCycle_reqFmt : (beginCycle s).reqFmt = s.reqFmt := rfl
@[simp] theorem beginCycle_payloadSize : (beginCycle s).payloadSize = s.payloadSize := rfl
@[simp] theorem beginCycle_reqValid : (beginCycle s).reqValid = s.reqValid := rfl
@[simp] theorem beginCycle_xferCount : (beginCycle s).xferCount = s.xferCount := rfl
@[simp] theorem beginCycle_pend : (beginCycle s).pend = s.pend := rfl
@[simp] theorem beginCycle_encRdy : (beginCycle s).encRdy = s.encRdy := rfl
@[simp] theorem beginCycle_dstH : (beginCycle s).dstH = s.dstH := rfl
@[simp] theorem beginCycle_dstW : (beginCycle s).dstW = s.dstW := rfl
@[simp] theorem beginCycle_dstC : (beginCycle s).dstC = s.dstC := rfl
@[simp] theorem beginCycle_srcH : (beginCycle s).srcH = s.srcH := rfl
@[simp] theorem beginCycle_srcW : (beginCycle s).srcW = s.srcW := rfl
@[simp] theorem beginCycle_srcC : (beginCycle s).srcC = s.srcC := rfl
@[simp] theorem beginCycle_errCode : (beginCycle s).errCode = s.errCode := rfl
@[simp] theorem beginCycle_resyncCount : (beginCycle s).resyncCount = s.resyncCount := rfl
@[simp] theorem beginCycle_scanCount : (beginCycle s).scanCount = s.scanCount := rfl
@[simp] theorem beginCycle_irqStatus : (beginCycle s).irqStatus = s.irqStatus := rfl
@[simp] theorem beginCycle_irqEnable : (beginCycle s).irqEnable = s.irqEnable := rfl
@[simp] theorem beginCycle_linkQ : (beginCycle s).linkQ = s.linkQ := rfl
@[simp] theorem beginCycle_irqSet : (beginCycle s).irqSet = 0 := rfl
@[simp] theorem beginCycle_irqClear : (beginCycle s).irqClear = 0 := rfl
@[simp] theorem beginCycle_srcBuf : (beginCycle s).srcBuf = s.srcBuf := rfl
@[simp] theorem beginCycle_dstBuf : (beginCycle s).dstBuf = s.dstBuf := rfl
@[simp] theorem beginCycle_bufBytes : (beginCycle s).bufBytes = s.bufBytes := rfl
@[simp] theorem beginCycle_inputs : (beginCycle s).inputs = s.inputs.tail := rfl
@[simp] theorem beginCycle_cycle : (beginCycle s).cycle = s.cycle + 1 := rfl
@[simp] theorem beginCycle_inp : (beginCycle s).inp = currentInput s := rfl
@[simp] theorem beginCycle_out : (beginCycle s).out = outputs s (currentInput s) := rfl
@[simp] theorem beginCycle_txLog : (beginCycle s).txLog = s.txLog := rfl

/-! ### enterError (what all four entries leave unchanged) -/

@[simp] theorem enterError_hdrRaw (e : ErrorEntry) : (enterError e s).hdrRaw = s.hdrRaw := by cases e <;> rfl
@[simp] theorem enterError_reqDir (e : ErrorEntry) : (enterError e s).reqDir = s.reqDir := by cases e <;> rfl
@[simp] theorem enterError_reqH (e : ErrorEntry) : (enterError e s).reqH = s.reqH := by cases e <;> rfl
@[simp] theorem enterError_reqW (e : ErrorEntry) : (enterError e s).reqW = s.reqW := by cases e <;> rfl
@[simp] theorem enterError_reqFmt (e : ErrorEntry) : (enterError e s).reqFmt = s.reqFmt := by cases e <;> rfl
@[simp] theorem enterError_payloadSize (e : ErrorEntry) : (enterError e s).payloadSize = s.payloadSize := by cases e <;> rfl
@[simp] theorem enterError_xferCount (e : ErrorEntry) : (enterError e s).xferCount = s.xferCount := by cases e <;> rfl
@[simp] theorem enterError_pend (e : ErrorEntry) : (enterError e s).pend = s.pend := by cases e <;> rfl
@[simp] theorem enterError_dstH (e : ErrorEntry) : (enterError e s).dstH = s.dstH := by cases e <;> rfl
@[simp] theorem enterError_dstW (e : ErrorEntry) : (enterError e s).dstW = s.dstW := by cases e <;> rfl
@[simp] theorem enterError_dstC (e : ErrorEntry) : (enterError e s).dstC = s.dstC := by cases e <;> rfl
@[simp] theorem enterError_srcH (e : ErrorEntry) : (enterError e s).srcH = s.srcH := by cases e <;> rfl
@[simp] theorem enterError_srcW (e : ErrorEntry) : (enterError e s).srcW = s.srcW := by cases e <;> rfl
@[simp] theorem enterError_srcC (e : ErrorEntry) : (enterError e s).srcC = s.srcC := by cases e <;> rfl
@[simp] theorem enterError_scanCount (e : ErrorEntry) : (enterError e s).scanCount = s.scanCount := by cases e <;> rfl
@[simp] theorem enterError_irqStatus (e : ErrorEntry) : (enterError e s).irqStatus = s.irqStatus := by cases e <;> rfl
@[simp] theorem enterError_irqEnable (e : ErrorEntry) : (enterError e s).irqEnable = s.irqEnable := by cases e <;> rfl
@[simp] theorem enterError_linkQ (e : ErrorEntry) : (enterError e s).linkQ = s.linkQ := by cases e <;> rfl
@[simp] theorem enterError_irqClear (e : ErrorEntry) : (enterError e s).irqClear = s.irqClear := by cases e <;> rfl
@[simp] theorem enterError_srcBuf (e : ErrorEntry) : (enterError e s).srcBuf = s.srcBuf := by cases e <;> rfl
@[simp] theorem enterError_dstBuf (e : ErrorEntry) : (enterError e s).dstBuf = s.dstBuf := by cases e <;> rfl
@[simp] theorem enterError_bufBytes (e : ErrorEntry) : (enterError e s).bufBytes = s.bufBytes := by cases e <;> rfl
@[simp] theorem enterError_inputs (e : ErrorEntry) : (enterError e s).inputs = s.inputs := by cases e <;> rfl
@[simp] theorem enterError_cycle (e : ErrorEntry) : (enterError e s).cycle = s.cycle := by cases e <;> rfl
@[simp] theorem enterError_inp (e : ErrorEntry) : (enterError e s).inp = s.inp := by cases e <;> rfl
@[simp] theorem enterError_out (e : ErrorEntry) : (enterError e s).out = s.out := by cases e <;> rfl
@[simp] theorem enterError_txLog (e : ErrorEntry) : (enterError e s).txLog = s.txLog := by cases e <;> rfl

/-! ### acceptHeader -/

@[simp] theorem acceptHeader_state (n : Nat) : (acceptHeader n s).state = .hdrDecoded := rfl
@[simp] theorem acceptHeader_seenM0 (n : Nat) : (acceptHeader n s).seenM0 = s.seenM0 := rfl
@[simp] theorem acceptHeader_hdrIdx (n : Nat) : (acceptHeader n s).hdrIdx = s.hdrIdx := rfl
@[simp] theorem acceptHeader_hdrRaw (n : Nat) : (acceptHeader n s).hdrRaw = s.hdrRaw := rfl
@[simp] theorem acceptHeader_reqDir (n : Nat) : (acceptHeader n s).reqDir = s.reqDir := rfl
@[simp] theorem acceptHeader_reqH (n : Nat) : (acceptHeader n s).reqH = s.reqH := rfl
@[simp] theorem acceptHeader_reqW (n : Nat) : (acceptHeader n s).reqW = s.reqW := rfl
@[simp] theorem acceptHeader_reqFmt (n : Nat) : (acceptHeader n s).reqFmt = s.reqFmt := rfl
@[simp] theorem acceptHeader_payloadSize (n : Nat) : (acceptHeader n s).payloadSize = BitVec.ofNat 32 n := rfl
@[simp] theorem acceptHeader_reqValid (n : Nat) : (acceptHeader n s).reqValid = true := rfl
@[simp] theorem acceptHeader_xferCount (n : Nat) : (acceptHeader n s).xferCount = s.xferCount := rfl
@[simp] theorem acceptHeader_pend (n : Nat) : (acceptHeader n s).pend = s.pend := rfl
@[simp] theorem acceptHeader_encRdy (n : Nat) : (acceptHeader n s).encRdy = s.encRdy := rfl
@[simp] theorem acceptHeader_dstH (n : Nat) : (acceptHeader n s).dstH = s.dstH := rfl
@[simp] theorem acceptHeader_dstW (n : Nat) : (acceptHeader n s).dstW = s.dstW := rfl
@[simp] theorem acceptHeader_dstC (n : Nat) : (acceptHeader n s).dstC = s.dstC := rfl
@[simp] theorem acceptHeader_srcH (n : Nat) : (acceptHeader n s).srcH = s.srcH := rfl
@[simp] theorem acceptHeader_srcW (n : Nat) : (acceptHeader n s).srcW = s.srcW := rfl
@[simp] theorem acceptHeader_srcC (n : Nat) : (acceptHeader n s).srcC = s.srcC := rfl
@[simp] theorem acceptHeader_errCode (n : Nat) : (acceptHeader n s).errCode = s.errCode := rfl
@[simp] theorem acceptHeader_resyncCount (n : Nat) : (acceptHeader n s).resyncCount = s.resyncCount := rfl
@[simp] theorem acceptHeader_scanCount (n : Nat) : (acceptHeader n s).scanCount = s.scanCount := rfl
@[simp] theorem acceptHeader_irqStatus (n : Nat) : (acceptHeader n s).irqStatus = s.irqStatus := rfl
@[simp] theorem acceptHeader_irqEnable (n : Nat) : (acceptHeader n s).irqEnable = s.irqEnable := rfl
@[simp] theorem acceptHeader_linkQ (n : Nat) : (acceptHeader n s).linkQ = s.linkQ := rfl
@[simp] theorem acceptHeader_irqSet (n : Nat) : (acceptHeader n s).irqSet = s.irqSet ||| 0x01 := rfl
@[simp] theorem acceptHeader_irqClear (n : Nat) : (acceptHeader n s).irqClear = s.irqClear := rfl
@[simp] theorem acceptHeader_srcBuf (n : Nat) : (acceptHeader n s).srcBuf = s.srcBuf := rfl
@[simp] theorem acceptHeader_dstBuf (n : Nat) : (acceptHeader n s).dstBuf = s.dstBuf := rfl
@[simp] theorem acceptHeader_bufBytes (n : Nat) : (acceptHeader n s).bufBytes = s.bufBytes := rfl
@[simp] theorem acceptHeader_inputs (n : Nat) : (acceptHeader n s).inputs = s.inputs := rfl
@[simp] theorem acceptHeader_cycle (n : Nat) : (acceptHeader n s).cycle = s.cycle := rfl
@[simp] theorem acceptHeader_inp (n : Nat) : (acceptHeader n s).inp = s.inp := rfl
@[simp] theorem acceptHeader_out (n : Nat) : (acceptHeader n s).out = s.out := rfl
@[simp] theorem acceptHeader_txLog (n : Nat) : (acceptHeader n s).txLog = s.txLog := rfl

/-! ### decodeComplete -/

@[simp] theorem decodeComplete_state : (decodeComplete s).state = .idle := rfl
@[simp] theorem decodeComplete_seenM0 : (decodeComplete s).seenM0 = s.seenM0 := rfl
@[simp] theorem decodeComplete_hdrIdx : (decodeComplete s).hdrIdx = s.hdrIdx := rfl
@[simp] theorem decodeComplete_hdrRaw : (decodeComplete s).hdrRaw = s.hdrRaw := rfl
@[simp] theorem decodeComplete_reqDir : (decodeComplete s).reqDir = s.reqDir := rfl
@[simp] theorem decodeComplete_reqH : (decodeComplete s).reqH = s.reqH := rfl
@[simp] theorem decodeComplete_reqW : (decodeComplete s).reqW = s.reqW := rfl
@[simp] theorem decodeComplete_reqFmt : (decodeComplete s).reqFmt = s.reqFmt := rfl
@[simp] theorem decodeComplete_payloadSize : (decodeComplete s).payloadSize = s.payloadSize := rfl
@[simp] theorem decodeComplete_reqValid : (decodeComplete s).reqValid = false := rfl
@[simp] theorem decodeComplete_xferCount : (decodeComplete s).xferCount = s.xferCount := rfl
@[simp] theorem decodeComplete_pend : (decodeComplete s).pend = s.pend := rfl
@[simp] theorem decodeComplete_encRdy : (decodeComplete s).encRdy = s.encRdy := rfl
@[simp] theorem decodeComplete_dstH : (decodeComplete s).dstH = s.reqH := rfl
@[simp] theorem decodeComplete_dstW : (decodeComplete s).dstW = s.reqW := rfl
@[simp] theorem decodeComplete_dstC : (decodeComplete s).dstC = BitVec.ofNat 2 (nch s.reqFmt) := rfl
@[simp] theorem decodeComplete_srcH : (decodeComplete s).srcH = s.srcH := rfl
@[simp] theorem decodeComplete_srcW : (decodeComplete s).srcW = s.srcW := rfl
@[simp] theorem decodeComplete_srcC : (decodeComplete s).srcC = s.srcC := rfl
@[simp] theorem decodeComplete_errCode : (decodeComplete s).errCode = s.errCode := rfl
@[simp] theorem decodeComplete_resyncCount : (decodeComplete s).resyncCount = s.resyncCount := rfl
@[simp] theorem decodeComplete_scanCount : (decodeComplete s).scanCount = s.scanCount := rfl
@[simp] theorem decodeComplete_irqStatus : (decodeComplete s).irqStatus = s.irqStatus := rfl
@[simp] theorem decodeComplete_irqEnable : (decodeComplete s).irqEnable = s.irqEnable := rfl
@[simp] theorem decodeComplete_linkQ : (decodeComplete s).linkQ = s.linkQ := rfl
@[simp] theorem decodeComplete_irqSet : (decodeComplete s).irqSet = s.irqSet ||| 0x02 := rfl
@[simp] theorem decodeComplete_irqClear : (decodeComplete s).irqClear = s.irqClear := rfl
@[simp] theorem decodeComplete_srcBuf : (decodeComplete s).srcBuf = s.srcBuf := rfl
@[simp] theorem decodeComplete_dstBuf : (decodeComplete s).dstBuf = s.dstBuf := rfl
@[simp] theorem decodeComplete_bufBytes : (decodeComplete s).bufBytes = s.bufBytes := rfl
@[simp] theorem decodeComplete_inputs : (decodeComplete s).inputs = s.inputs := rfl
@[simp] theorem decodeComplete_cycle : (decodeComplete s).cycle = s.cycle := rfl
@[simp] theorem decodeComplete_inp : (decodeComplete s).inp = s.inp := rfl
@[simp] theorem decodeComplete_out : (decodeComplete s).out = s.out := rfl
@[simp] theorem decodeComplete_txLog : (decodeComplete s).txLog = s.txLog := rfl

/-! ### encodeComplete -/

@[simp] theorem encodeComplete_state : (encodeComplete s).state = .idle := rfl
@[simp] theorem encodeComplete_seenM0 : (encodeComplete s).seenM0 = s.seenM0 := rfl
@[simp] theorem encodeComplete_hdrIdx : (encodeComplete s).hdrIdx = s.hdrIdx := rfl
@[simp] theorem encodeComplete_hdrRaw : (encodeComplete s).hdrRaw = s.hdrRaw := rfl
@[simp] theorem encodeComplete_reqDir : (encodeComplete s).reqDir = s.reqDir := rfl
@[simp] theorem encodeComplete_reqH : (encodeComplete s).reqH = s.reqH := rfl
@[simp] theorem encodeComplete_reqW : (encodeComplete s).reqW = s.reqW := rfl
@[simp] theorem encodeComplete_reqFmt : (encodeComplete s).reqFmt = s.reqFmt := rfl
@[simp] theorem encodeComplete_payloadSize : (encodeComplete s).payloadSize = s.payloadSize := rfl
@[simp] theorem encodeComplete_reqValid : (encodeComplete s).reqValid = false := rfl
@[simp] theorem encodeComplete_xferCount : (encodeComplete s).xferCount = s.xferCount := rfl
@[simp] theorem encodeComplete_pend : (encodeComplete s).pend = s.pend := rfl
@[simp] theorem encodeComplete_encRdy : (encodeComplete s).encRdy = s.encRdy := rfl
@[simp] theorem encodeComplete_dstH : (encodeComplete s).dstH = s.dstH := rfl
@[simp] theorem encodeComplete_dstW : (encodeComplete s).dstW = s.dstW := rfl
@[simp] theorem encodeComplete_dstC : (encodeComplete s).dstC = s.dstC := rfl
@[simp] theorem encodeComplete_srcH : (encodeComplete s).srcH = s.srcH := rfl
@[simp] theorem encodeComplete_srcW : (encodeComplete s).srcW = s.srcW := rfl
@[simp] theorem encodeComplete_srcC : (encodeComplete s).srcC = s.srcC := rfl
@[simp] theorem encodeComplete_errCode : (encodeComplete s).errCode = s.errCode := rfl
@[simp] theorem encodeComplete_resyncCount : (encodeComplete s).resyncCount = s.resyncCount := rfl
@[simp] theorem encodeComplete_scanCount : (encodeComplete s).scanCount = s.scanCount := rfl
@[simp] theorem encodeComplete_irqStatus : (encodeComplete s).irqStatus = s.irqStatus := rfl
@[simp] theorem encodeComplete_irqEnable : (encodeComplete s).irqEnable = s.irqEnable := rfl
@[simp] theorem encodeComplete_linkQ : (encodeComplete s).linkQ = s.linkQ := rfl
@[simp] theorem encodeComplete_irqSet : (encodeComplete s).irqSet = s.irqSet ||| 0x02 := rfl
@[simp] theorem encodeComplete_irqClear : (encodeComplete s).irqClear = s.irqClear := rfl
@[simp] theorem encodeComplete_srcBuf : (encodeComplete s).srcBuf = s.srcBuf := rfl
@[simp] theorem encodeComplete_dstBuf : (encodeComplete s).dstBuf = s.dstBuf := rfl
@[simp] theorem encodeComplete_bufBytes : (encodeComplete s).bufBytes = s.bufBytes := rfl
@[simp] theorem encodeComplete_inputs : (encodeComplete s).inputs = s.inputs := rfl
@[simp] theorem encodeComplete_cycle : (encodeComplete s).cycle = s.cycle := rfl
@[simp] theorem encodeComplete_inp : (encodeComplete s).inp = s.inp := rfl
@[simp] theorem encodeComplete_out : (encodeComplete s).out = s.out := rfl
@[simp] theorem encodeComplete_txLog : (encodeComplete s).txLog = s.txLog := rfl

/-! ### resetRegisters -/

@[simp] theorem resetRegisters_state : (resetRegisters s).state = State.reset.state := rfl
@[simp] theorem resetRegisters_seenM0 : (resetRegisters s).seenM0 = State.reset.seenM0 := rfl
@[simp] theorem resetRegisters_hdrIdx : (resetRegisters s).hdrIdx = State.reset.hdrIdx := rfl
@[simp] theorem resetRegisters_hdrRaw : (resetRegisters s).hdrRaw = State.reset.hdrRaw := rfl
@[simp] theorem resetRegisters_reqDir : (resetRegisters s).reqDir = State.reset.reqDir := rfl
@[simp] theorem resetRegisters_reqH : (resetRegisters s).reqH = State.reset.reqH := rfl
@[simp] theorem resetRegisters_reqW : (resetRegisters s).reqW = State.reset.reqW := rfl
@[simp] theorem resetRegisters_reqFmt : (resetRegisters s).reqFmt = State.reset.reqFmt := rfl
@[simp] theorem resetRegisters_payloadSize : (resetRegisters s).payloadSize = State.reset.payloadSize := rfl
@[simp] theorem resetRegisters_reqValid : (resetRegisters s).reqValid = State.reset.reqValid := rfl
@[simp] theorem resetRegisters_xferCount : (resetRegisters s).xferCount = State.reset.xferCount := rfl
@[simp] theorem resetRegisters_pend : (resetRegisters s).pend = State.reset.pend := rfl
@[simp] theorem resetRegisters_encRdy : (resetRegisters s).encRdy = State.reset.encRdy := rfl
@[simp] theorem resetRegisters_dstH : (resetRegisters s).dstH = State.reset.dstH := rfl
@[simp] theorem resetRegisters_dstW : (resetRegisters s).dstW = State.reset.dstW := rfl
@[simp] theorem resetRegisters_dstC : (resetRegisters s).dstC = State.reset.dstC := rfl
@[simp] theorem resetRegisters_srcH : (resetRegisters s).srcH = State.reset.srcH := rfl
@[simp] theorem resetRegisters_srcW : (resetRegisters s).srcW = State.reset.srcW := rfl
@[simp] theorem resetRegisters_srcC : (resetRegisters s).srcC = State.reset.srcC := rfl
@[simp] theorem resetRegisters_errCode : (resetRegisters s).errCode = State.reset.errCode := rfl
@[simp] theorem resetRegisters_resyncCount : (resetRegisters s).resyncCount = State.reset.resyncCount := rfl
@[simp] theorem resetRegisters_scanCount : (resetRegisters s).scanCount = State.reset.scanCount := rfl
@[simp] theorem resetRegisters_irqStatus : (resetRegisters s).irqStatus = State.reset.irqStatus := rfl
@[simp] theorem resetRegisters_irqEnable : (resetRegisters s).irqEnable = State.reset.irqEnable := rfl
@[simp] theorem resetRegisters_linkQ : (resetRegisters s).linkQ = State.reset.linkQ := rfl
@[simp] theorem resetRegisters_irqSet : (resetRegisters s).irqSet = State.reset.irqSet := rfl
@[simp] theorem resetRegisters_irqClear : (resetRegisters s).irqClear = State.reset.irqClear := rfl
@[simp] theorem resetRegisters_srcBuf : (resetRegisters s).srcBuf = s.srcBuf := rfl
@[simp] theorem resetRegisters_dstBuf : (resetRegisters s).dstBuf = s.dstBuf := rfl
@[simp] theorem resetRegisters_bufBytes : (resetRegisters s).bufBytes = s.bufBytes := rfl
@[simp] theorem resetRegisters_inputs : (resetRegisters s).inputs = s.inputs := rfl
@[simp] theorem resetRegisters_cycle : (resetRegisters s).cycle = s.cycle := rfl
@[simp] theorem resetRegisters_inp : (resetRegisters s).inp = s.inp := rfl
@[simp] theorem resetRegisters_out : (resetRegisters s).out = s.out := rfl
@[simp] theorem resetRegisters_txLog : (resetRegisters s).txLog = s.txLog := rfl

end Sys2Proof.Laws
end

