-- ==== Sys2Proof/Laws/Ops.lean ====
section
/-!
SUPPORT. One lemma for each shared operation that says once everything it can do. Proofs cite these instead of unfolding the
operation.
-/

namespace Sys2Proof.Laws

open Sys2Proof.Machine

/-! ### Outcomes -/

@[simp] theorem andThen_next (s : State) (f : State → Host.Outcome State Fault Refusal) :
    andThen (.next s) f = f s := rfl

@[simp] theorem andThen_refused (r : Refusal) (f : State → Host.Outcome State Fault Refusal) :
    andThen (.refused r) f = .refused r := rfl

/-- A chain answers next exactly when both parts do. -/
theorem andThen_eq_next {o : Host.Outcome State Fault Refusal} {f : State → Host.Outcome State Fault Refusal} {t : State} :
    andThen o f = .next t ↔ ∃ s, o = .next s ∧ f s = .next t := by
  cases o <;> simp [andThen]

/-! ### Sums and address regions -/

theorem sumTo_eq_sum (n : Nat) (f : Nat → Nat) : sumTo n f = ∑ k ∈ Finset.range n, f k := by
  induction n with
  | zero => rfl
  | succ n ih => rw [sumTo, ih, Finset.sum_range_succ]

theorem regionOf_dst {a : Word} (h : 0x01000000 ≤ a.toNat) (h' : a.toNat < 0x02000000) :
    regionOf a = .dst (a.toNat - 0x01000000) := by
  simp [regionOf, Nat.not_lt.mpr h, h']

theorem regionOf_src {a : Word} (h : 0x02000000 ≤ a.toNat) (h' : a.toNat < 0x03000000) :
    regionOf a = .src (a.toNat - 0x02000000) := by
  simp [regionOf, Nat.not_lt.mpr h, h', show ¬a.toNat < 0x01000000 by omega]

/-! ### Error entries -/

theorem enterError_resync (code : ErrCode) (s : State) :
    enterError (.resync code) s =
      { s with
        errCode := code, resyncCount := s.resyncCount + 1, irqSet := s.irqSet ||| 0x08, seenM0 := false, hdrIdx := 0,
        state := .scan } := rfl

theorem enterError_cycleFail (code : ErrCode) (s : State) :
    enterError (.cycleFail code) s =
      { s with
        errCode := code, irqSet := s.irqSet ||| 0x04, reqValid := false, encRdy := false, state := .idle } := rfl

theorem enterError_linkFatal (s : State) :
    enterError .linkFatal s =
      { s with
        errCode := .linkFatal, irqSet := s.irqSet ||| 0x20, reqValid := false, encRdy := false, seenM0 := false,
        hdrIdx := 0, state := .idle } := rfl

theorem enterError_cancelled (s : State) :
    enterError .cancelled s =
      { s with
        errCode := .cancelled, irqSet := s.irqSet ||| 0x10, reqValid := false, seenM0 := false, hdrIdx := 0,
        state := .idle } := rfl

/-! ### Byte steps -/

theorem scanByte_cases (b : Byte) (s : State) :
    (s.seenM0 = true ∧ b = 0x54 ∧
      scanByte b s = { s with scanCount := s.scanCount + 1, state := .hdr, hdrIdx := 0, seenM0 := false }) ∨
    (¬(s.seenM0 = true ∧ b = 0x54) ∧
      scanByte b s = { s with scanCount := s.scanCount + 1, seenM0 := b == 0x53 }) := by
  by_cases h : s.seenM0 = true ∧ b = 0x54
  · exact .inl ⟨h.1, h.2, by simp [scanByte, h]⟩
  · exact .inr ⟨h, by unfold scanByte; rw [if_neg h]⟩

theorem hdrByte_field (b : Byte) (s : State) (h : s.hdrIdx ≠ 5) :
    hdrByte b s = { s with hdrRaw := s.hdrRaw.set s.hdrIdx b, hdrIdx := s.hdrIdx + 1 } := by
  unfold hdrByte
  exact if_neg h

theorem hdrByte_last (b : Byte) (s : State) (h : s.hdrIdx = 5) :
    hdrByte b s =
      headerComplete s.hdrRaw.b0 (halfOf s.hdrRaw.b1 s.hdrRaw.b2) (halfOf s.hdrRaw.b3 s.hdrRaw.b4) b
        { s with hdrRaw := { s.hdrRaw with b5 := b }, hdrIdx := 0 } := by
  unfold hdrByte
  simp only [h, if_true, HdrRaw.set]

/-- The checks of a header, field by field. -/
theorem wellFormed_hdr (dir : Byte) (height width : Half) (fmt : Byte) :
    (Instr.hdr dir height width fmt).wellFormed = true ↔
      ((dir = 1 ∨ dir = 2) ∧ (height ≠ 0 ∧ width ≠ 0)) ∧ ((fmt = 1 ∨ fmt = 2) ∨ fmt = 3) := by
  simp only [Instr.wellFormed, directionLegal, dimensionsLegal, formatLegal, Bool.and_eq_true, Bool.or_eq_true,
    beq_iff_eq, bne_iff_ne]

/-- A completed header is accepted, overflows, or is resynchronized for its first bad field. -/
theorem headerComplete_cases (dir : Byte) (height width : Half) (fmt : Byte) (s : State) :
    (∃ code, (Instr.hdr dir height width fmt).wellFormed = false ∧
      headerComplete dir height width fmt s = enterError (.resync code) s) ∨
    ((Instr.hdr dir height width fmt).wellFormed = true ∧ 4294967295 < payloadBytes height width (fmt.setWidth 2) ∧
      headerComplete dir height width fmt s =
        enterError (.cycleFail .sizeOverflow)
          { s with
            reqDir := dir.setWidth 2, reqH := height, reqW := width, reqFmt := fmt.setWidth 2, payloadSize := 0 }) ∨
    ((Instr.hdr dir height width fmt).wellFormed = true ∧ payloadBytes height width (fmt.setWidth 2) ≤ 4294967295 ∧
      headerComplete dir height width fmt s =
        acceptHeader (payloadBytes height width (fmt.setWidth 2))
          { s with reqDir := dir.setWidth 2, reqH := height, reqW := width, reqFmt := fmt.setWidth 2 }) := by
  have hwf := wellFormed_hdr dir height width fmt
  by_cases hd : dir ≠ 1 ∧ dir ≠ 2
  · exact .inl ⟨_, Bool.eq_false_iff.mpr (by tauto), by unfold headerComplete; rw [if_pos hd]⟩
  by_cases hz : height = 0 ∨ width = 0
  · exact .inl ⟨_, Bool.eq_false_iff.mpr (by tauto), by unfold headerComplete; rw [if_neg hd, if_pos hz]⟩
  by_cases hf : fmt ≠ 1 ∧ fmt ≠ 2 ∧ fmt ≠ 3
  · exact .inl ⟨_, Bool.eq_false_iff.mpr (by tauto),
      by unfold headerComplete; rw [if_neg hd, if_neg hz, if_pos hf]⟩
  have hw : (Instr.hdr dir height width fmt).wellFormed = true := by tauto
  by_cases hn : payloadBytes height width (fmt.setWidth 2) > 4294967295
  · refine .inr (.inl ⟨hw, hn, ?_⟩)
    unfold headerComplete
    rw [if_neg hd, if_neg hz, if_neg hf]
    exact if_pos hn
  · refine .inr (.inr ⟨hw, by omega, ?_⟩)
    unfold headerComplete
    rw [if_neg hd, if_neg hz, if_neg hf]
    exact if_neg hn

theorem decodeAdvance_cases (s : State) :
    (s.xferCount + 1 = s.payloadSize ∧
      decodeAdvance s = decodeComplete { s with xferCount := s.xferCount + 1 }) ∨
    (s.xferCount + 1 ≠ s.payloadSize ∧ decodeAdvance s = { s with xferCount := s.xferCount + 1 }) := by
  by_cases h : s.xferCount + 1 = s.payloadSize
  · exact .inl ⟨h, if_pos h⟩
  · exact .inr ⟨h, if_neg h⟩

theorem readPackedByte_cases (b : Byte) (s : State) :
    (s.xferCount.toNat % 2 = 0 ∧ readPackedByte b s = decodeAdvance { s with pend := b }) ∨
    (s.xferCount.toNat % 2 = 1 ∧
      readPackedByte b s =
        decodeAdvance
          { s with
            dstBuf := storeBytes s.bufBytes s.dstBuf (3 * ((s.xferCount.toNat - 1) / 2)) (unpack565 (s.pend ++ b)) }) := by
  unfold readPackedByte
  by_cases h : s.xferCount.toNat % 2 = 0
  · exact .inl ⟨h, by simp [h]⟩
  · exact .inr ⟨by omega, by simp [h]⟩

theorem transmitByte_cases (s : State) :
    (s.xferCount + 1 = s.payloadSize ∧
      transmitByte s =
        encodeComplete
          { s with
            encRdy := false, xferCount := s.xferCount + 1, txLog := s.txLog ++ [encByte s s.xferCount.toNat] }) ∨
    (s.xferCount + 1 ≠ s.payloadSize ∧
      transmitByte s =
        { s with
          encRdy := false, xferCount := s.xferCount + 1, txLog := s.txLog ++ [encByte s s.xferCount.toNat] }) := by
  by_cases h : s.xferCount + 1 = s.payloadSize
  · exact .inl ⟨h, if_pos h⟩
  · exact .inr ⟨h, if_neg h⟩

/-! ### Phases of the cycle -/

theorem linkPhase_cases (s : State) :
    (s.inp.linkUp = false ∧ (s.linkQ = true ∨ s.state ≠ .idle) ∧ linkPhase s = enterError .linkFatal s) ∨
    ((s.inp.linkUp = true ∨ (s.linkQ = false ∧ s.state = .idle)) ∧ linkPhase s = s) := by
  by_cases h : s.inp.linkUp = false ∧ (s.linkQ = true ∨ s.state ≠ .idle)
  · exact .inl ⟨h.1, h.2, if_pos h⟩
  · refine .inr ⟨?_, if_neg h⟩
    cases hl : s.inp.linkUp <;> cases hq : s.linkQ <;> simp_all

/-- A write that is no command can change only the clear mask, IRQ_ENABLE, the source descriptor and SRC_BUF, and the last
two only outside WRITING. -/
theorem dataWrite_effect (s0 : EngineState) (w32 : Bool) (a v : Word) (s : State) :
    ∃ clear enable h w c m,
      dataWrite s0 w32 a v s =
        { s with irqClear := clear, irqEnable := enable, srcH := h, srcW := w, srcC := c, srcBuf := m } ∧
      (s0 = .writing → h = s.srcH ∧ w = s.srcW ∧ c = s.srcC ∧ m = s.srcBuf) ∧
      (m = s.srcBuf ∨ ∃ i bs, m = storeBytes s.bufBytes s.srcBuf i bs) := by
  have keep : ∃ clear enable h w c m,
      s = { s with irqClear := clear, irqEnable := enable, srcH := h, srcW := w, srcC := c, srcBuf := m } ∧
      (s0 = .writing → h = s.srcH ∧ w = s.srcW ∧ c = s.srcC ∧ m = s.srcBuf) ∧
      (m = s.srcBuf ∨ ∃ i bs, m = storeBytes s.bufBytes s.srcBuf i bs) :=
    ⟨s.irqClear, s.irqEnable, s.srcH, s.srcW, s.srcC, s.srcBuf, rfl, fun _ => ⟨rfl, rfl, rfl, rfl⟩, .inl rfl⟩
  unfold dataWrite
  split
  · split
    · split
      · exact ⟨_, s.irqEnable, s.srcH, s.srcW, s.srcC, s.srcBuf, rfl, fun _ => ⟨rfl, rfl, rfl, rfl⟩, .inl rfl⟩
      · exact ⟨s.irqClear, _, s.srcH, s.srcW, s.srcC, s.srcBuf, rfl, fun _ => ⟨rfl, rfl, rfl, rfl⟩, .inl rfl⟩
      · split
        · exact keep
        · next h => exact ⟨s.irqClear, s.irqEnable, _, _, s.srcC, s.srcBuf, rfl, fun e => absurd e h, .inl rfl⟩
      · split
        · exact keep
        · next h => exact ⟨s.irqClear, s.irqEnable, s.srcH, s.srcW, _, s.srcBuf, rfl, fun e => absurd e h, .inl rfl⟩
      · exact keep
    · exact keep
  · split
    · exact keep
    · next h =>
      split
      · split
        · exact ⟨s.irqClear, s.irqEnable, s.srcH, s.srcW, s.srcC, _, rfl, fun e => absurd e h, .inr ⟨_, _, rfl⟩⟩
        · exact keep
      · exact ⟨s.irqClear, s.irqEnable, s.srcH, s.srcW, s.srcC, _, rfl, fun e => absurd e h, .inr ⟨_, _, rfl⟩⟩
  · exact keep
  · exact keep

theorem timeoutStep_cases (s0 : EngineState) (idx0 : Fin 6) (moved : Bool) (s : State) :
    (s0 = .hdr ∧ ¬(moved = true ∧ idx0 ≠ 1 ∧ idx0 ≠ 3) ∧
      timeoutStep s0 idx0 moved s = enterError (.resync .incompleteHeader) s) ∨
    (s0 = .reading ∧ timeoutStep s0 idx0 moved s = enterError (.cycleFail .shortRead) s) ∨
    (((s0 = .hdr ∧ moved = true ∧ idx0 ≠ 1 ∧ idx0 ≠ 3) ∨ (s0 ≠ .hdr ∧ s0 ≠ .reading)) ∧
      timeoutStep s0 idx0 moved s = s) := by
  cases s0
  case hdr =>
    by_cases h : moved = true ∧ idx0 ≠ 1 ∧ idx0 ≠ 3
    · exact .inr (.inr ⟨.inl ⟨rfl, h⟩, if_pos h⟩)
    · exact .inl ⟨rfl, h, if_neg h⟩
  case reading => exact .inr (.inl ⟨rfl, rfl⟩)
  all_goals exact .inr (.inr ⟨.inr ⟨nofun, nofun⟩, rfl⟩)

theorem writeFailStep_cases (s0 : EngineState) (s : State) :
    (s.inp.txFail = true ∧ s0 = .writing ∧ s.state = .writing ∧
      writeFailStep s0 s = enterError (.cycleFail .shortWrite) s) ∨
    (¬(s.inp.txFail = true ∧ s0 = .writing ∧ s.state = .writing) ∧ writeFailStep s0 s = s) := by
  by_cases h : s.inp.txFail = true ∧ s0 = .writing ∧ s.state = .writing
  · exact .inl ⟨h.1, h.2.1, h.2.2, if_pos h⟩
  · exact .inr ⟨h, if_neg h⟩

theorem encoderPhase_cases (s : State) :
    (s.state = .writing ∧ s.encRdy = false ∧ encoderPhase s = { s with encRdy := s.inp.encDraw }) ∨
    (¬(s.state = .writing ∧ s.encRdy = false) ∧ encoderPhase s = s) := by
  by_cases h : s.state = .writing ∧ s.encRdy = false
  · exact .inl ⟨h.1, h.2, if_pos h⟩
  · exact .inr ⟨h, if_neg h⟩

/-- No earlier phase changed STATE, or phase 3 does nothing. -/
theorem streamPhase_skipped {s0 : EngineState} {idx0 : Fin 6} {s : State} (h : s.state ≠ s0) :
    streamPhase s0 idx0 s = .next s := if_pos h

end Sys2Proof.Laws
end

