-- ==== Sys2Proof/Laws/Bits.lean ====
section
/-!
SUPPORT. Fields of encoded words: taking apart what is joined, and what the bytes a cycle receives and the codes it fetches
amount to.
-/

namespace Sys2Proof.Laws

open Sys2Proof.Machine

/-! ### Bytes of a 16-bit field -/

theorem highByte_halfOf (a b : Byte) : highByte (halfOf a b) = a := by
  unfold highByte halfOf
  apply BitVec.eq_of_getLsbD_eq
  intro i hi
  grind

theorem lowByte_halfOf (a b : Byte) : lowByte (halfOf a b) = b := by
  unfold lowByte halfOf
  apply BitVec.eq_of_getLsbD_eq
  intro i hi
  grind

theorem halfOf_highByte_lowByte (h : Half) : halfOf (highByte h) (lowByte h) = h := by
  unfold highByte lowByte halfOf
  apply BitVec.eq_of_getLsbD_eq
  intro i hi
  grind

/-! ### Codes -/

/-- A marker word that begins with 0x53 is the marker exactly when its second byte is 0x54. -/
theorem marker_iff (b : Byte) : (0x53#8 ++ b : BitVec 16) = 0x5354 ↔ b = 0x54 := by
  constructor
  · intro h
    have hb : (0x53#8 ++ b : BitVec 16).extractLsb' 0 8 = b := by
      apply BitVec.eq_of_getLsbD_eq
      intro i hi
      grind
    rw [← hb, h]
    rfl
  · rintro rfl
    rfl

/-- The header word of five held field bytes and the received one decodes to their fields. -/
theorem decode_headerWord (r : HdrRaw) (b : Byte) :
    decode (.header (headerWord r b)) = .ok (.hdr r.b0 (halfOf r.b1 r.b2) (halfOf r.b3 r.b4) b) := by
  have h0 : (headerWord r b).extractLsb' 48 16 = 0x5354 := by
    unfold headerWord; apply BitVec.eq_of_getLsbD_eq; intro i hi; grind
  have h1 : (headerWord r b).extractLsb' 40 8 = r.b0 := by
    unfold headerWord; apply BitVec.eq_of_getLsbD_eq; intro i hi; grind
  have h2 : (headerWord r b).extractLsb' 24 16 = halfOf r.b1 r.b2 := by
    unfold headerWord halfOf; apply BitVec.eq_of_getLsbD_eq; intro i hi; grind
  have h3 : (headerWord r b).extractLsb' 8 16 = halfOf r.b3 r.b4 := by
    unfold headerWord halfOf; apply BitVec.eq_of_getLsbD_eq; intro i hi; grind
  have h4 : (headerWord r b).extractLsb' 0 8 = b := by
    unfold headerWord; apply BitVec.eq_of_getLsbD_eq; intro i hi; grind
  simp only [decode, decodeHeader, h0, h1, h2, h3, h4, if_true]

/-- A 2-bit format field is one of its four values. -/
theorem format_cases (f : BitVec 2) : f = 0 ∨ f = 1 ∨ f = 2 ∨ f = 3 := by
  revert f
  decide

/-! ### What a received byte does -/

/-- Phase 3a, whatever code the byte completes: the SCAN byte step, the HDR byte step, or the READING byte step of
REQ_FMT. -/
theorem receivePhase_eq (s : State) :
    receivePhase s = .next (match s.state with
      | .scan => scanByte s.inp.rxData s
      | .hdr => hdrByte s.inp.rxData s
      | .reading =>
        if s.reqFmt = 1 then readPlainByte s.inp.rxData s
        else if s.reqFmt = 2 then readPackedByte s.inp.rxData s
        else if s.reqFmt = 3 then readPlainByte s.inp.rxData s
        else s
      | .idle => s
      | .hdrDecoded => s
      | .writing => s) := by
  unfold receivePhase
  cases hs : s.state
  case scan =>
    simp only [fetchReceived, hs]
    by_cases hq : s.seenM0 = true
    · simp only [hq, if_true, decode, decodeMarker, marker_iff]
      by_cases hb : s.inp.rxData = 0x54
      · simp [hb, exec, execSync, hs]
      · rw [if_neg hb]
        simp only [plainByte, hs]
    · simp [hq, plainByte, hs]
  case hdr =>
    simp only [fetchReceived, hs]
    by_cases h0 : s.hdrIdx = 0
    · simp only [h0, if_true, decode, decodeDirection]
      by_cases h1 : s.inp.rxData = 0x01
      · simp [h1, exec, execDirDeviceWrites, directionByte, hs, h0]
      · by_cases h2 : s.inp.rxData = 0x02
        · simp [h2, exec, execDirDeviceReads, directionByte, hs, h0]
        · rw [if_neg h1, if_neg h2]
          simp only [plainByte, hs]
    · by_cases h5 : s.hdrIdx = 5
      · rw [if_neg h0, if_pos h5, decode_headerWord]
        simp only [exec, execHdr, hs, h5, hdrByte_last _ _ h5, and_self, if_true, headerBytes, highByte_halfOf,
          lowByte_halfOf]
      · simp [h0, h5, plainByte, hs]
  case reading =>
    simp only [fetchReceived, hs, decode, decodeFormat]
    rcases format_cases s.reqFmt with h | h | h | h <;>
      simp [h, exec, execFmtGrayscale, execFmtRGB565, execFmtRGB888, formatCode, hs, plainByte]
  all_goals simp [fetchReceived, plainByte, hs]

/-- Phase 3c in WRITING is the transmit step, whatever REQ_FMT holds. -/
theorem transmitPhase_writing (s : State) (hs : s.state = .writing) : transmitPhase s = .next (transmitByte s) := by
  unfold transmitPhase
  simp only [decode, decodeFormat]
  rcases format_cases s.reqFmt with h | h | h | h <;>
    simp [h, exec, execFmtGrayscale, execFmtRGB565, execFmtRGB888, formatCode, hs]

/-- The words of CMD. -/
theorem commandWrite_eq (w : Word) (s : State) :
    commandWrite w s =
      if w = 1 then exec .poll s else if w = 2 then exec .read s else if w = 3 then exec .write s
      else if w = 4 then exec .cancel s else .next (reject s) := by
  unfold commandWrite decode decodeCommand
  by_cases h1 : w = 1
  · subst h1; rfl
  by_cases h2 : w = 2
  · subst h2; rfl
  by_cases h3 : w = 3
  · subst h3; rfl
  by_cases h4 : w = 4
  · subst h4; rfl
  dsimp only
  rw [if_neg h1, if_neg h2, if_neg h3, if_neg h4, if_neg h1, if_neg h2, if_neg h3, if_neg h4]

end Sys2Proof.Laws
end

