-- ==== Sys2Proof/Laws/Cycle.lean ====
section
/-!
SUPPORT. The cycle: the byte ports, what a fed state begins its cycle with, what the bus can do while bytes move, and runs under an
environment.
-/

namespace Sys2Proof.Laws

open Sys2Proof.Machine

/-! ### The outputs of a cycle -/

@[simp] theorem outputs_rxReady (s : State) (c : CycleIn) : (outputs s c).rxReady = rxReady s c := rfl

@[simp] theorem outputs_tx (s : State) (c : CycleIn) :
    (outputs s c).tx = if txValid s c then some (encByte s s.xferCount.toNat) else none := rfl

theorem txValid_iff {s : State} {c : CycleIn} :
    txValid s c = true ↔ c.rst = false ∧ c.linkUp = true ∧ s.state = .writing ∧ s.encRdy = true := by
  simp [txValid, and_assoc]

/-! ### A fed state -/

@[simp] theorem currentInput_fed (s : State) (c : CycleIn) (r : List CycleIn) : currentInput (s.fed (c :: r)) = c := rfl

theorem beginCycle_fed (s : State) (c : CycleIn) (r : List CycleIn) :
    beginCycle (s.fed (c :: r)) =
      { s with
        inp := c, inputs := r, cycle := s.cycle + 1, out := outputs s c, irqSet := 0, irqClear := 0 } := rfl

/-- The link is up: phase 1 does nothing. -/
theorem linkPhase_up {s : State} (h : s.inp.linkUp = true) : linkPhase s = s := by
  unfold linkPhase
  simp [h]

/-! ### The bus while bytes move -/

/-- No command word is accepted in HDR, READING and WRITING (43_transfer_engine.md R147). -/
theorem commandWrite_busy (w : Word) {s : State} (h : s.state = .hdr ∨ s.state = .reading ∨ s.state = .writing) :
    commandWrite w s = .next (reject s) := by
  rw [commandWrite_eq]
  rcases h with h | h | h <;> simp [exec, execPoll, execRead, execWrite, execCancel, h]

/-- Phase 2 in HDR, READING and WRITING changes only the interrupt masks, IRQ_ENABLE, the source descriptor and SRC_BUF, the
last two not in WRITING. -/
theorem busPhase_busy (s0 : EngineState) {s : State}
    (h : s.state = .hdr ∨ s.state = .reading ∨ s.state = .writing) :
    ∃ set clear enable hh w c m,
      busPhase s0 s = .next { s with
        irqSet := set, irqClear := clear, irqEnable := enable, srcH := hh, srcW := w, srcC := c, srcBuf := m } ∧
      (s0 = .writing → hh = s.srcH ∧ w = s.srcW ∧ c = s.srcC ∧ m = s.srcBuf) ∧
      (m = s.srcBuf ∨ ∃ i bs, m = storeBytes s.bufBytes s.srcBuf i bs) := by
  unfold busPhase
  split
  · split
    · rw [commandWrite_busy _ h]
      exact ⟨_, s.irqClear, s.irqEnable, s.srcH, s.srcW, s.srcC, s.srcBuf, rfl, fun _ => ⟨rfl, rfl, rfl, rfl⟩, .inl rfl⟩
    · obtain ⟨clear, enable, hh, w, c, m, e, keep, store⟩ :=
        dataWrite_effect s0 s.inp.busW32 s.inp.busAddr s.inp.busWdata s
      exact ⟨s.irqSet, clear, enable, hh, w, c, m, congrArg _ e, keep, store⟩
  · exact ⟨s.irqSet, s.irqClear, s.irqEnable, s.srcH, s.srcW, s.srcC, s.srcBuf, rfl, fun _ => ⟨rfl, rfl, rfl, rfl⟩,
      .inl rfl⟩

/-! ### Runs under an environment -/

/-- The invariants do not speak of the coming inputs. -/
theorem Invariant_fed {s : State} (cs : List CycleIn) (h : Invariant s) : Invariant (s.fed cs) where
  valid_iff_live := h.valid_iff_live
  hdrIdx_zero := h.hdrIdx_zero
  seenM0_clear := h.seenM0_clear
  transfer_open := h.transfer_open
  payload_sized := h.payload_sized
  payload_pos := h.payload_pos
  direction_legal := h.direction_legal
  format_legal := h.format_legal
  reading_direction := h.reading_direction
  writing_direction := h.writing_direction
  encRdy_clear := h.encRdy_clear
  reading_fits := h.reading_fits
  writing_source := h.writing_source
  masks_clear := h.masks_clear
  bufBytes_range := h.bufBytes_range
  buffers_wf := h.buffers_wf
  buffers_below := h.buffers_below

/-- In READING the invariants bound the transfer. -/
theorem readingBounds_of_invariant {s : State} (h : Invariant s) (hs : s.state = .reading) : ReadingBounds s :=
  ⟨h.transfer_open (by rw [hs]; rfl), h.payload_sized (by rw [hs]; rfl), h.reading_fits hs⟩

@[simp] theorem runUnder_zero (env : Nat → CycleIn) (s : State) : runUnder env 0 s = .next s := rfl

theorem runUnder_succ {env : Nat → CycleIn} {n : Nat} {s u : State} (h : runUnder env n s = .next u) :
    runUnder env (n + 1) s = step (u.fed [env n]) := by
  simp only [runUnder, h, andThen_next]

/-- What holds of a state and is kept by every step of the run holds all along it. -/
theorem runUnder_keeps {P : State → Prop} {env : Nat → CycleIn} {s : State} (h0 : P s)
    (hstep : ∀ k u t, P u → step (u.fed [env k]) = .next t → P t) :
    ∀ n u, runUnder env n s = .next u → P u := by
  intro n
  induction n with
  | zero => rintro u ⟨⟩; exact h0
  | succ n ih =>
    intro t ht
    obtain ⟨u, hu, hut⟩ := andThen_eq_next.mp ht
    exact hstep n u t (ih u hu) hut

end Sys2Proof.Laws
end

