-- ==== Sys2Proof/Laws/PerInstr.lean ====
section
/-!
SUPPORT. Facts about every instruction, one lemma per constructor. The family EncodeFormat says in which format each
instruction is encoded (spec/opcode_table.json, column "format").
-/

namespace Sys2Proof.Laws

/-- The formats of spec/opcode_table.json. -/
inductive Format where
  | cmd32
  | marker16
  | header64
  | hdrDir8
  | hdrFmt8
  deriving DecidableEq, Repr

/-- The format a code word has. -/
def wordFormat : CodeWord → Format
  | .command _ => .cmd32
  | .marker _ => .marker16
  | .header _ => .header64
  | .direction _ => .hdrDir8
  | .format _ => .hdrFmt8

/-- The format the table gives an instruction. -/
def tableFormat : Instr → Format
  | .poll => .cmd32
  | .read => .cmd32
  | .write => .cmd32
  | .cancel => .cmd32
  | .sync => .marker16
  | .hdr _ _ _ _ => .header64
  | .dirDeviceWrites => .hdrDir8
  | .dirDeviceReads => .hdrDir8
  | .fmtGrayscale => .hdrFmt8
  | .fmtRGB565 => .hdrFmt8
  | .fmtRGB888 => .hdrFmt8

/-- An instruction is encoded in the format the table gives it. -/
def EncodeFormat.Statement (i : Instr) : Prop := wordFormat (encode i) = tableFormat i

theorem EncodeFormat.poll : EncodeFormat.Statement .poll := rfl
theorem EncodeFormat.read : EncodeFormat.Statement .read := rfl
theorem EncodeFormat.write : EncodeFormat.Statement .write := rfl
theorem EncodeFormat.cancel : EncodeFormat.Statement .cancel := rfl
theorem EncodeFormat.sync : EncodeFormat.Statement .sync := rfl
theorem EncodeFormat.hdr (dir : Byte) (height width : Half) (fmt : Byte) :
    EncodeFormat.Statement (.hdr dir height width fmt) := rfl
theorem EncodeFormat.dirDeviceWrites : EncodeFormat.Statement .dirDeviceWrites := rfl
theorem EncodeFormat.dirDeviceReads : EncodeFormat.Statement .dirDeviceReads := rfl
theorem EncodeFormat.fmtGrayscale : EncodeFormat.Statement .fmtGrayscale := rfl
theorem EncodeFormat.fmtRGB565 : EncodeFormat.Statement .fmtRGB565 := rfl
theorem EncodeFormat.fmtRGB888 : EncodeFormat.Statement .fmtRGB888 := rfl

end Sys2Proof.Laws
end

