-- ==== Sys2Proof/Tests/Slice0.lean ====
section
/-!
SUPPORT. Tests: each well-formedness check refuses an ill-formed header, words written out from the spec's encodings decode,
single steps give the results of the spec's worked examples, and a concrete witness for the hypotheses of each statement.
-/

namespace Sys2Proof.Tests

open Sys2Proof.Machine

/-! ### Well-formedness: one ill-formed header for each check -/

/-- Scenario A's header is well formed. -/
theorem test_wellFormed_header : (Instr.hdr 2 4 4 1).wellFormed = true := by decide

theorem test_illFormed_direction : (Instr.hdr 3 4 4 1).wellFormed = false := by decide

theorem test_illFormed_height : (Instr.hdr 2 0 4 1).wellFormed = false := by decide

theorem test_illFormed_width : (Instr.hdr 2 4 0 1).wellFormed = false := by decide

/-- Scenario C's format byte 0x09. -/
theorem test_illFormed_format : (Instr.hdr 2 4 4 9).wellFormed = false := by decide

/-! ### Decoding: each word written from 30_encoding.md -/

theorem test_decode_poll : decode (.command 0b00000000000000000000000000000001) = .ok .poll := by decide
theorem test_decode_read : decode (.command 0b00000000000000000000000000000010) = .ok .read := by decide
theorem test_decode_write : decode (.command 0b00000000000000000000000000000011) = .ok .write := by decide
theorem test_decode_cancel : decode (.command 0b00000000000000000000000000000100) = .ok .cancel := by decide
/-- Bits [31:4] must be 0 (R76). -/
theorem test_decode_reserved_command : decode (.command 0x80000001) = .error .reservedCommand := by decide
/-- 'S' = 0x53, 'T' = 0x54 (R81). -/
theorem test_decode_sync : decode (.marker 0b0101001101010100) = .ok .sync := by decide
/-- R78: marker, direction 1, height 0x0102, width 0x0304, format 2, most significant bytes first. -/
theorem test_decode_hdr : decode (.header 0x5354_01_0102_0304_02) = .ok (.hdr 1 0x0102 0x0304 2) := by decide
theorem test_decode_dirDeviceWrites : decode (.direction 0b00000001) = .ok .dirDeviceWrites := by decide
theorem test_decode_dirDeviceReads : decode (.direction 0b00000010) = .ok .dirDeviceReads := by decide
theorem test_decode_fmtGrayscale : decode (.format 0b00000001) = .ok .fmtGrayscale := by decide
theorem test_decode_fmtRGB565 : decode (.format 0b00000010) = .ok .fmtRGB565 := by decide
theorem test_decode_fmtRGB888 : decode (.format 0b00000011) = .ok .fmtRGB888 := by decide

/-- The table's numbering (spec/opcode_table.json). -/
theorem test_tableWord :
    decodeTableWord 32 3 = some .write ∧ decodeTableWord 16 0x5354 = some .sync ∧
    decodeTableWord 64 0x5354020004000401 = some (.hdr 2 4 4 1) ∧ decodeTableWord 8 2 = some .dirDeviceReads ∧
    decodeTableWord 8 3 = some .fmtRGB888 ∧ decodeTableWord 8 4 = none := by decide

/-! ### States and cycles the tests use -/

/-- IDLE with buffers of 16 bytes and the link up now and in the cycle before. -/
def idle : State := { State.reset with bufBytes := 16, inp := linkedCycle, linkQ := true }

def scanning : State := { idle with state := .scan }

/-- In HDR with k field bytes of the header 01 00 02 00 02 .. held (R104's example). -/
def inHeader (k : Fin 6) : State := { idle with state := .hdr, hdrIdx := k, hdrRaw := ⟨1, 0, 2, 0, 2, 0⟩ }

/-- A live Request. -/
def decoded (dir : BitVec 2) (h w : Half) (fmt : BitVec 2) : State :=
  { idle with
    state := .hdrDecoded, reqValid := true, reqDir := dir, reqH := h, reqW := w, reqFmt := fmt,
    payloadSize := BitVec.ofNat 32 (payloadBytes h w fmt) }

/-- READING with k payload bytes received. -/
def reading (h w : Half) (fmt : BitVec 2) (k : Word) : State :=
  { decoded 1 h w fmt with state := .reading, xferCount := k }

/-- WRITING a 1x1 gray source 0x7F, with k payload bytes sent and the next one ready. -/
def writing (h w : Half) (fmt : BitVec 2) (k : Word) : State :=
  { decoded 2 h w fmt with
    state := .writing, xferCount := k, encRdy := true, srcH := 1, srcW := 1, srcC := 1, srcBuf := [(0, 0x7F)] }

/-- The state after one cycle with the inputs c. -/
def after (s : State) (c : CycleIn) : Option State :=
  match step (s.fed [c]) with
  | .next t => some t
  | .fault _ => none
  | .refused _ => none

def readyCycle : CycleIn := { linkedCycle with txReady := true }

def timeoutCycle : CycleIn := { linkedCycle with rxTimeout := true }

def downCycle : CycleIn := { linkedCycle with linkUp := false }

def resetCycle : CycleIn := { commandCycle 1 with rst := true }

/-! ### Single steps, from the worked examples of the rules named -/

/-- R142: STATUS.STATE = 1 and LAST_ERR = 0. -/
theorem test_step_poll :
    (after { idle with errCode := .cancelled } (commandCycle 1)).map (fun t => (csrValue t 0x04 &&& 7, csrValue t 0x18)) =
      some (1, 0) := by decide

/-- R143, with a buffer of 12 bytes, just enough. -/
theorem test_step_read :
    (after { decoded 1 2 2 3 with bufBytes := 12 } (commandCycle 2)).map (fun t => (t.state, t.xferCount)) =
      some (.reading, 0) := by decide

/-- R143: one byte too few is BufOverflow, code 8 of class 2, CYCFAIL. -/
theorem test_step_read_overflow :
    (after { decoded 1 2 2 3 with bufBytes := 11 } (commandCycle 2)).map
      (fun t => (t.state, csrValue t 0x18, t.irqStatus)) = some (.idle, 0x28, 0x04) := by decide

/-- R144. -/
theorem test_step_write :
    (after { decoded 2 4 4 1 with srcH := 4, srcW := 4, srcC := 1 } (commandCycle 3)).map (fun t => t.state) =
      some .writing := by decide

/-- R144: SRC_C = 2 is rejected and the Request stays live. -/
theorem test_step_write_rejected :
    (after { decoded 2 4 4 1 with srcH := 1, srcW := 1, srcC := 2 } (commandCycle 3)).map
      (fun t => (t.state, t.reqValid, t.irqStatus)) = some (.hdrDecoded, true, 0x40) := by decide

/-- R145: LAST_ERR.CODE = 10 and IRQ_STATUS.CANCEL = 1. -/
theorem test_step_cancel :
    (after scanning (commandCycle 4)).map (fun t => (t.state, csrValue t 0x18 &&& 15, t.irqStatus)) =
      some (.idle, 10, 0x10) := by decide

/-- R97: the match takes the scanner to HDR and counts the byte. -/
theorem test_step_sync :
    (after { scanning with seenM0 := true } (byteCycle 0x54)).map (fun t => (t.state, t.scanCount, t.seenM0)) =
      some (.hdr, 1, false) := by decide

/-- R97 corner case 1: 'S','S' keeps SEEN_M0. -/
theorem test_step_noise :
    (after { scanning with seenM0 := true } (byteCycle 0x53)).map (fun t => (t.state, t.seenM0)) =
      some (.scan, true) := by decide

/-- R104: REQ = (DeviceWrites, 2, 2, RGB888), PAYLOAD_SIZE = 12, and R43: HDR_RAW1 = 0x0000_0302. -/
theorem test_step_hdr :
    (after (inHeader 5) (byteCycle 3)).map
      (fun t => (t.state, csrValue t 0x08, csrValue t 0x0C, t.payloadSize, csrValue t 0x20, t.irqStatus)) =
      some (.hdrDecoded, 0x301, 0x00020002, 12, 0x302, 0x01) := by decide

/-- Scenario C: format 0x09 is UnknownFormat, back to SCAN, RESYNC. -/
theorem test_step_hdr_bad_format :
    (after (inHeader 5) (byteCycle 9)).map (fun t => (t.state, t.errCode, t.resyncCount, t.irqStatus)) =
      some (.scan, .unknownFormat, 1, 0x08) := by decide

/-- R103: the direction byte is stored and the header goes on. -/
theorem test_step_dirDeviceWrites :
    (after (inHeader 0) (byteCycle 1)).map (fun t => (t.hdrRaw.b0, t.hdrIdx)) = some (1, 1) := by decide

theorem test_step_dirDeviceReads :
    (after (inHeader 0) (byteCycle 2)).map (fun t => (t.hdrRaw.b0, t.hdrIdx)) = some (2, 1) := by decide

/-- R116: the last of 00 7F 80 FF completes a 2x2 Grayscale payload. -/
theorem test_step_fmtGrayscale_read :
    (after (reading 2 2 1 3) (byteCycle 0xFF)).map (fun t => (t.dstBuf, t.state, t.dstC, t.irqStatus)) =
      some ([(3, 0xFF)], .idle, 1, 0x02) := by decide

/-- R117: F8 00 gives FF 00 00. -/
theorem test_step_fmtRGB565_read :
    (after { reading 1 2 2 1 with pend := 0xF8 } (byteCycle 0x00)).map (fun t => (t.dstBuf, t.xferCount)) =
      some ([(0, 0xFF), (1, 0), (2, 0)], 2) := by decide

/-- R118: the second byte of 10 20 30 is channel 1. -/
theorem test_step_fmtRGB888_read :
    (after (reading 1 1 3 1) (byteCycle 0x20)).map (fun t => (t.dstBuf, t.state)) =
      some ([(1, 0x20)], .reading) := by decide

/-- R138 corner case 1: a 1x1 Grayscale request sends one byte. -/
theorem test_step_fmtGrayscale_write :
    (after (writing 1 1 1 0) readyCycle).map (fun t => (t.txLog, t.state, t.irqStatus)) =
      some ([0x7F], .idle, 0x02) := by decide

/-- R131, R134: Pack565(7F, 7F, 7F) = 0x7BEF, low byte last. -/
theorem test_step_fmtRGB565_write :
    (after (writing 1 1 2 1) readyCycle).map (fun t => (t.txLog, t.state)) = some ([0xEF], .idle) := by decide

/-- R133: the gray sample is replicated. -/
theorem test_step_fmtRGB888_write :
    (after (writing 1 1 3 1) readyCycle).map (fun t => (t.txLog, t.xferCount, t.encRdy)) =
      some ([0x7F], 2, false) := by decide

/-- Where withFetchWord puts a word, the next step runs it (two rows of each kind of place). -/
theorem test_withFetchWord :
    (after idle (commandCycle 1)).map (fun t => t.state) = some .scan ∧
    (match step (State.reset.withFetchWord 32 1) with | .next t => t.state = .scan | _ => False) ∧
    (match step (State.reset.withFetchWord 16 0x5354) with | .next t => t.state = .hdr | _ => False) ∧
    (match step (State.reset.withFetchWord 64 0x5354020004000401) with | .next t => t.payloadSize = 16 | _ => False) ∧
    (match step (State.reset.withFetchWord 8 2) with | .next t => t.hdrRaw.b0 = 2 | _ => False) ∧
    (match step (State.reset.withFetchWord 8 3) with | .next t => t.xferCount = 1 | _ => False) := by
  refine ⟨by decide, rfl, rfl, rfl, rfl, rfl⟩

/-! ### Witnesses: concrete states and operands that meet the hypotheses of each statement, clause by clause -/

/-- Scenario A's header, one byte in each cycle. -/
def headerCycles (h w : Half) (fmt : Byte) : List CycleIn := (encodeHeader 2 h w fmt).map byteCycle

/-- A state with live state s meets the invariants. -/
theorem test_invariant_idle : Invariant idle := by constructor <;> decide
theorem test_invariant_scanning : Invariant scanning := by constructor <;> decide
theorem test_invariant_header : Invariant (inHeader 5) := by constructor <;> decide
theorem test_invariant_decoded : Invariant (decoded 1 2 2 3) := by constructor <;> decide
theorem test_invariant_reading_gray : Invariant (reading 1 2 1 0) := by constructor <;> decide
theorem test_invariant_reading_packed : Invariant (reading 1 1 2 0) := by constructor <;> decide
theorem test_invariant_writing : Invariant (writing 1 1 1 0) := by constructor <;> decide

theorem test_witness_EncodeOfDecode :
    decode (.header 0x5354020004000401) = .ok (.hdr 2 4 4 1) ∧ decode (.command 4) = .ok .cancel ∧
    decode (.format 3) = .ok .fmtRGB888 := by decide

/-- One pixel, which fits, and 65535 x 65535 RGB888, which overflows. -/
theorem test_witness_HeaderRoundTrip :
    scanning.state = .scan ∧
    ((∀ c ∈ headerCycles 1 1 1, undisturbed c = true ∧ c.rxTimeout = false) ∧
      offeredBytes (headerCycles 1 1 1) = encodeHeader 2 1 1 1 ∧ endsOffering (headerCycles 1 1 1) = true ∧
      payloadBytes 1 1 1 ≤ 4294967295) ∧
    ((∀ c ∈ headerCycles 65535 65535 3, undisturbed c = true ∧ c.rxTimeout = false) ∧
      offeredBytes (headerCycles 65535 65535 3) = encodeHeader 2 65535 65535 3 ∧
      endsOffering (headerCycles 65535 65535 3) = true ∧ 4294967295 < payloadBytes 65535 65535 3) := by decide

theorem test_witness_PollResult :
    (idle.state = .idle ∧ idle.inp.linkUp = true) ∧
    (let s := { idle with inp := downCycle }; s.state = .idle ∧ s.inp.linkUp = false) ∧ scanning.state ≠ .idle := by decide

/-- A decoded buffer of exactly BUF_BYTES, one larger, and a Request of the other direction. -/
theorem test_witness_ReadResult :
    (let s := { decoded 1 4 4 1 with bufBytes := 16 };
      s.state = .hdrDecoded ∧ s.reqDir = 1 ∧ s.reqH.toNat * s.reqW.toNat * nch s.reqFmt ≤ s.bufBytes) ∧
    (let s := { decoded 1 4 4 1 with bufBytes := 15 };
      s.state = .hdrDecoded ∧ s.reqDir = 1 ∧ s.bufBytes < s.reqH.toNat * s.reqW.toNat * nch s.reqFmt) ∧
    ((idle.state ≠ .hdrDecoded ∨ idle.reqDir ≠ 1) ∧
      ((decoded 2 4 4 1).state ≠ .hdrDecoded ∨ (decoded 2 4 4 1).reqDir ≠ 1)) := by decide

/-- A source of exactly BUF_BYTES, and one byte more. -/
theorem test_witness_WriteResult :
    (let s := { decoded 2 4 4 1 with srcH := 4, srcW := 4, srcC := 1, bufBytes := 16 };
      s.state = .hdrDecoded ∧ s.reqDir = 2 ∧ ((s.srcC = 1 ∨ s.srcC = 3) ∧ s.srcH ≠ 0 ∧ s.srcW ≠ 0 ∧
        s.srcH.toNat * s.srcW.toNat * s.srcC.toNat ≤ s.bufBytes)) ∧
    (let s := { decoded 2 4 4 1 with srcH := 4, srcW := 4, srcC := 1, bufBytes := 15 };
      ¬(s.state = .hdrDecoded ∧ s.reqDir = 2 ∧ ((s.srcC = 1 ∨ s.srcC = 3) ∧ s.srcH ≠ 0 ∧ s.srcW ≠ 0 ∧
        s.srcH.toNat * s.srcW.toNat * s.srcC.toNat ≤ s.bufBytes))) := by decide

theorem test_witness_CancelResult :
    (scanning.state = .scan ∨ scanning.state = .hdrDecoded) ∧
    ¬((inHeader 0).state = .scan ∨ (inHeader 0).state = .hdrDecoded) ∧
    (hostCommand (commandCycle 4) = some .cancel ∧ scanning.state = .scan) := by decide

/-- A second POLL, a reserved word, READ with the link down, and accesses that are no 4-byte write. -/
theorem test_witness_RejectedCommandSetsOnlyCmdrej :
    (linkedCycle.rst = false ∧ linkedCycle.busEn = false) ∧
    (linkedCycle.linkUp = true ∧ commandAccepted scanning 1 = false ∧ commandAccepted scanning 0 = false) ∧
    (downCycle.rst = false ∧ downCycle.busEn = false ∧ downCycle.linkUp = false ∧ (2 : Word) ≠ 1) ∧
    ((true && false) = false ∧ (false && true) = false) := by decide

theorem test_witness_SyncResult :
    (let s := { scanning with seenM0 := true }; s.state = .scan ∧ s.seenM0 = true) ∧
    (scanning.state = .scan ∧ scanning.seenM0 = false) ∧ idle.state ≠ .scan := by decide

theorem test_witness_ScanByteStep :
    (scanning.state = .scan ∧ undisturbed timeoutCycle = true ∧ timeoutCycle.rxValid = false) ∧
    (let s := { scanning with seenM0 := true }; s.state = .scan ∧ s.seenM0 = true ∧ (0x54 : Byte) = 0x54) ∧
    ¬(scanning.seenM0 = true ∧ (0x54 : Byte) = 0x54) := by decide

/-- Noise 'S', 'S', then the pair. -/
theorem test_witness_ScannerFindsFirstMarker :
    scanning.state = .scan ∧ scanning.seenM0 = false ∧ hasMarker [0x53, 0x53] = false ∧
    ((∀ c ∈ [byteCycle 0x53, timeoutCycle, byteCycle 0x53], undisturbed c = true) ∧
      offeredBytes [byteCycle 0x53, timeoutCycle, byteCycle 0x53] = [0x53, 0x53]) ∧
    (let cs := [byteCycle 0x53, byteCycle 0x53, byteCycle 0x53, byteCycle 0x54];
      (∀ c ∈ cs, undisturbed c = true) ∧ offeredBytes cs = [0x53, 0x53] ++ [0x53, 0x54] ∧ endsOffering cs = true) := by
  decide

/-- Each outcome, at the boundary of its check: direction 0, height 0, format 4, the largest RGB565 square that fits, the next
one. -/
theorem test_witness_HdrResult :
    ((inHeader 5).state = .hdr ∧ (inHeader 5).hdrIdx = 5) ∧
    ((0 : Byte) ≠ 1 ∧ (0 : Byte) ≠ 2) ∧
    (((2 : Byte) = 1 ∨ (2 : Byte) = 2) ∧ ((0 : Half) = 0 ∨ (1 : Half) = 0)) ∧
    (((1 : Half) ≠ 0 ∧ (65535 : Half) ≠ 0) ∧ ((4 : Byte) ≠ 1 ∧ (4 : Byte) ≠ 2 ∧ (4 : Byte) ≠ 3)) ∧
    ((2 : Byte) = 1 ∨ (2 : Byte) = 2 ∨ (2 : Byte) = 3) ∧
    4294967295 < (46341 : Half).toNat * (46341 : Half).toNat * bpp ((2 : Byte).setWidth 2) ∧
    (46340 : Half).toNat * (46340 : Half).toNat * bpp ((2 : Byte).setWidth 2) ≤ 4294967295 := by decide

theorem test_witness_HdrResult_elsewhere :
    ¬((inHeader 4).state = .hdr ∧ (inHeader 4).hdrIdx = 5) ∧ ¬(idle.state = .hdr ∧ idle.hdrIdx = 5) := by decide

theorem test_witness_DirectionCodeResult :
    ((inHeader 0).state = .hdr ∧ (inHeader 0).hdrIdx = 0) ∧
    ¬((inHeader 1).state = .hdr ∧ (inHeader 1).hdrIdx = 0) := by decide

theorem test_witness_FieldBytesStoredUnchecked :
    (∀ k ∈ [(0 : Fin 6), 4], (inHeader k).state = .hdr ∧ (inHeader k).hdrIdx ≠ 5) ∧
    linked linkedCycle = true ∧ linkedCycle.rxTimeout = false ∧ linkedCycle.rxValid = false := by decide

theorem test_witness_HeaderTimeout :
    ((inHeader 0).state = .hdr ∧ linked linkedCycle = true ∧ linkedCycle.rxTimeout = false ∧
      linkedCycle.rxValid = false) ∧
    ((inHeader 3).hdrIdx = 3 ∧ linked (byteCycle 0) = true ∧ (byteCycle 0).rxTimeout = false) ∧
    ((byteCycle 0).rxValid = true ∧ (inHeader 5).hdrIdx ≠ 1 ∧ (inHeader 5).hdrIdx ≠ 3) := by decide

theorem test_witness_SizeGuardBoundaries :
    4294967295 < payloadBytes 46341 46341 2 ∧ ¬(4294967295 < payloadBytes 46340 46340 2) ∧
    4294967295 < payloadBytes 65535 65535 3 := by decide

/-- A byte in the middle of the payload, and the last one, for both formats. -/
theorem test_witness_PlainReadResult :
    ((reading 2 2 1 0).state = .reading ∧ (reading 2 2 1 0).reqFmt = 1 ∧
      (reading 2 2 1 0).xferCount + 1 ≠ (reading 2 2 1 0).payloadSize) ∧
    ((reading 1 1 3 2).state = .reading ∧ (reading 1 1 3 2).reqFmt = 3 ∧
      (reading 1 1 3 2).xferCount + 1 = (reading 1 1 3 2).payloadSize) ∧
    (reading 1 1 1 0).xferCount + 1 = (reading 1 1 1 0).payloadSize ∧
    (reading 1 1 3 0).xferCount + 1 ≠ (reading 1 1 3 0).payloadSize ∧
    ReadingBounds (reading 2 2 1 0) ∧ ReadingBounds (reading 1 1 3 2) ∧ ReadingBounds (reading 1 1 1 0) ∧
    ReadingBounds { reading 1 1 3 0 with bufBytes := 3 } := by
  unfold ReadingBounds
  decide

theorem test_witness_PackedReadResult :
    ((reading 1 1 2 0).state = .reading ∧ (reading 1 1 2 0).reqFmt = 2 ∧ (reading 1 1 2 0).xferCount.toNat % 2 = 0 ∧
      (reading 1 1 2 0).xferCount + 1 ≠ (reading 1 1 2 0).payloadSize) ∧
    ((reading 1 1 2 1).xferCount.toNat % 2 = 1 ∧
      (reading 1 1 2 1).xferCount + 1 = (reading 1 1 2 1).payloadSize) ∧
    ReadingBounds (reading 1 1 2 0) ∧ ReadingBounds { reading 1 1 2 1 with bufBytes := 3 } := by
  unfold ReadingBounds
  decide

theorem test_witness_FormatCodeElsewhere :
    ((inHeader 5).state = .hdr ∧ (inHeader 5).hdrIdx = 5) ∧ idle.state = .idle ∧ scanning.state = .scan ∧
    (decoded 1 1 1 1).state = .hdrDecoded ∧ ((inHeader 0).state = .hdr ∧ (inHeader 0).hdrIdx ≠ 5) ∧
    ((reading 1 1 2 0).state = .reading ∧ (reading 1 1 2 0).reqFmt ≠ 1) ∧
    ((writing 1 1 3 0).state = .writing ∧ (writing 1 1 3 0).reqFmt ≠ 2) := by decide

/-- Two Grayscale bytes with an idle cycle between and a time-out beside the last. -/
theorem test_witness_PlainDecodeIsIdentity :
    let cs := [byteCycle 7, linkedCycle, { byteCycle 8 with rxTimeout := true }]
    let s := reading 1 2 1 0
    Invariant s ∧ s.state = .reading ∧ (s.reqFmt = 1 ∨ s.reqFmt = 3) ∧ s.xferCount = 0 ∧
      (∀ c ∈ cs, linked c = true) ∧ (∀ c ∈ cs.dropLast, c.rxTimeout = false) ∧
      (offeredBytes cs).length = s.payloadSize.toNat ∧ endsOffering cs = true :=
  ⟨test_invariant_reading_gray, by decide⟩

theorem test_witness_PackedDecodeExpandsPixels :
    let cs := [byteCycle 0xF8, byteCycle 0]
    let s := reading 1 1 2 0
    Invariant s ∧ s.state = .reading ∧ s.reqFmt = 2 ∧ s.xferCount = 0 ∧
      (∀ c ∈ cs, linked c = true) ∧ (∀ c ∈ cs.dropLast, c.rxTimeout = false) ∧
      (offeredBytes cs).length = s.payloadSize.toNat ∧ endsOffering cs = true ∧
      0 < s.reqH.toNat * s.reqW.toNat ∧ (offeredBytes cs)[2 * 0]? = some 0xF8 ∧
      (offeredBytes cs)[2 * 0 + 1]? = some 0 ∧ 3 * (s.reqH.toNat * s.reqW.toNat) ≤ 3 :=
  ⟨test_invariant_reading_packed, by decide⟩

/-- The last byte's cycle, and one before it. -/
theorem test_witness_ReadTimeout :
    ((reading 1 2 1 1).state = .reading ∧ (reading 1 2 1 1).reqFmt ≠ 0 ∧ linked (byteCycle 0) = true ∧ (byteCycle 0).rxTimeout = false ∧
      (after (reading 1 2 1 1) (byteCycle 0)).map (fun t => decide (t.state ≠ .reading)) = some true) ∧
    (after (reading 1 2 1 0) (byteCycle 0)).map (fun t => t.state) = some .reading := by decide

theorem test_witness_TransmitResult :
    ((writing 1 1 1 0).state = .writing ∧ (writing 1 1 1 0).reqFmt = 1 ∧
      (writing 1 1 1 0).xferCount + 1 = (writing 1 1 1 0).payloadSize) ∧
    ((writing 1 1 2 0).state = .writing ∧ (writing 1 1 2 0).reqFmt = 2 ∧
      (writing 1 1 2 0).xferCount + 1 ≠ (writing 1 1 2 0).payloadSize) ∧
    ((writing 1 1 3 2).state = .writing ∧ (writing 1 1 3 2).reqFmt = 3 ∧
      (writing 1 1 3 2).xferCount + 1 = (writing 1 1 3 2).payloadSize) := by decide

/-- The last byte of E and of its one pixel, and for each row of R131 a source of one channel or three and resized
values that all differ. -/
theorem test_witness_EncByteIsEncodedSequence :
    (let s := writing 1 1 3 0;
      (s.reqFmt = 1 ∨ s.reqFmt = 2 ∨ s.reqFmt = 3) ∧ 2 < payloadBytes s.reqH s.reqW s.reqFmt ∧ 2 < bpp s.reqFmt) ∧
    ∀ fmt ∈ [(1 : BitVec 2), 2, 3], ∀ ch ∈ [(1 : BitVec 2), 3],
      (let s := { writing 1 1 fmt 0 with srcC := ch, srcBuf := [(0, 10), (1, 20), (2, 30)] };
        s.srcH ≠ 0 ∧ s.srcW ≠ 0 ∧ 0 < s.reqH.toNat ∧ 0 < s.reqW.toNat ∧ s.srcC = ch ∧ s.reqFmt = fmt ∧
        (10 : Byte).toNat = resized s 0 0 0 ∧ (20 : Byte).toNat = resized s 0 0 1 ∧
        (30 : Byte).toNat = resized s 0 0 2) := by decide

/-- A cycle in which the sink stalls, one in which it takes the byte and the host writes a rejected READ. -/
theorem test_witness_TransmitStreamIsEncodedSequence :
    let cs := [linkedCycle, { commandCycle 2 with txReady := true }]
    Invariant (writing 1 1 1 0) ∧ (writing 1 1 1 0).state = .writing ∧ (writing 1 1 1 0).xferCount = 0 ∧
      ∀ c ∈ cs, linked c = true ∧ c.txFail = false ∧ hostCommand c ≠ some .poll :=
  ⟨test_invariant_writing, by decide⟩

theorem test_witness_OverlapWeightsSum : 2 < 3 ∧ sumTo 5 (fun y => overlap 5 3 2 y) = 5 := by decide

theorem test_witness_ResizeIdentityAndBound :
    let s := writing 1 1 1 0
    s.srcH ≠ 0 ∧ s.srcW ≠ 0 ∧ 0 < s.reqH.toNat ∧ 0 < s.reqW.toNat ∧ s.srcH = s.reqH ∧ s.srcW = s.reqW := by decide

/-- Down by 2 x 3, and up by 2 x 3. -/
theorem test_witness_ResizeByWholeFactors :
    (let s := { writing 1 1 1 0 with srcH := 2, srcW := 3 };
      s.srcH ≠ 0 ∧ s.srcW ≠ 0 ∧ 0 < s.reqH.toNat ∧ 0 < s.reqW.toNat ∧ s.srcH.toNat = 2 * s.reqH.toNat ∧
        s.srcW.toNat = 3 * s.reqW.toNat) ∧
    (let s := writing 2 3 1 0;
      s.srcH ≠ 0 ∧ s.srcW ≠ 0 ∧ 1 < s.reqH.toNat ∧ 2 < s.reqW.toNat ∧ s.reqH.toNat = 2 * s.srcH.toNat ∧
        s.reqW.toNat = 3 * s.srcW.toNat) := by decide

/-- The last byte's cycle, and one before it. -/
theorem test_witness_WriteFailure :
    ((writing 1 1 1 0).state = .writing ∧ linked readyCycle = true ∧ readyCycle.txFail = false ∧
      (after (writing 1 1 1 0) readyCycle).map (fun t => decide (t.state ≠ .writing)) = some true) ∧
    (after (writing 1 1 2 0) readyCycle).map (fun t => t.state) = some .writing := by decide

/-- A misaligned index, and the aligned index of the last whole word of a 16-byte buffer; for the whole step both ends of the
window, in WRITING and outside it. -/
theorem test_witness_SourceWindowWrite :
    (regionOf 0x02000001 = .src 1 ∧ 1 % 4 ≠ 0) ∧
    (regionOf 0x0200000C = .src 12 ∧ EngineState.idle ≠ .writing ∧ 12 % 4 = 0 ∧ 12 + 3 < idle.bufBytes) ∧
    regionOf 0x02FFFFFF = .src 16777215 ∧
    (linkedCycle.rst = false ∧ linkedCycle.busEn = false) ∧
    (0x02000000 ≤ (0x02000000 : Word).toNat ∧ (0x02000000 : Word).toNat % 4 = 0 ∧
      (0x02000000 : Word).toNat - 0x02000000 + 3 < idle.bufBytes) ∧
    ((0x02FFFFFF : Word).toNat < 0x03000000 ∧ (0x02FFFFFF : Word).toNat % 4 ≠ 0) ∧
    (writing 1 1 1 0).state = .writing := by decide

/-- Both ends of each window, a listed byte of each buffer, the last byte of the buffer and the first index past it. -/
theorem test_witness_WindowReadPacksBytes :
    (0x01000000 ≤ (0x01000000 : Word).toNat ∧ (0x01FFFFFF : Word).toNat < 0x02000000) ∧
    (0x02000000 ≤ (0x02000000 : Word).toNat ∧ (0x02FFFFFF : Word).toNat < 0x03000000) ∧
    (let s := { idle with srcBuf := [(0, 0x7F)], dstBuf := [(15, 1)] };
      Memory.read s.srcBuf 0 = some 0x7F ∧ Memory.read s.dstBuf 15 = some 1) ∧
    15 < idle.bufBytes ∧ idle.bufBytes ≤ 16 ∧ 12 % 4 = 0 ∧ 3 < 4 ∧ 13 % 4 ≠ 0 := by decide

/-- The first and last listed offset, the last aligned address and the first misaligned one of the CSR space, the first offset
past the list, and both ends of the reserved range. -/
theorem test_witness_CsrFieldLayout :
    idle.bufBytes < 4294967296 ∧
    ((0x44 : Word).toNat % 4 = 0 ∧ (0x44 : Word).toNat ≤ 0x44) ∧ (0x00FFFFFF : Word).toNat < 0x01000000 ∧
    (0x01 : Word).toNat % 4 ≠ 0 ∧ 0x44 < (0x48 : Word).toNat ∧ 0x44 < (0x00FFFFFC : Word).toNat ∧
    0x03000000 ≤ (0x03000000 : Word).toNat ∧ 0x03000000 ≤ (0xFFFFFFFF : Word).toNat := by decide

theorem test_witness_BusReadHasNoSideEffect : linkedCycle.busEn = false ∧ resetCycle.rst = true := by decide

/-- A 1-byte CSR write, a read-only CSR, an unlisted offset, the DST window, a misaligned word, a reserved address. -/
theorem test_witness_IgnoredWritesDoNothing :
    linkedCycle.busEn = false ∧ ignoredWrite false 0 = true ∧ ignoredWrite true 0x04 = true ∧
    ignoredWrite true 0x48 = true ∧ ignoredWrite false 0x01000000 = true ∧ ignoredWrite true 0x02000002 = true ∧
    ignoredWrite true 0xFFFFFFFF = true := by decide

theorem test_witness_WritableRegisters :
    linkedCycle.rst = false ∧ linkedCycle.busEn = false ∧ idle.state ≠ .writing ∧
    (writing 1 1 1 0).state = .writing := by decide

/-- Each premise of the three clauses, with a step that answers next. -/
theorem test_witness_BufferWriters :
    (after idle linkedCycle).isSome = true ∧
    ¬(idle.state = .reading ∧ linkedCycle.rxValid = true ∧ rxReady idle linkedCycle = true) ∧
    resetCycle.rst = true ∧ (writing 1 1 1 0).state = .writing ∧ readyCycle.rst = false ∧
    ¬(linkedCycle.busEn = true ∧ linkedCycle.busWe = true) := by decide

theorem test_witness_RequestAndTagStable :
    (after idle linkedCycle).isSome = true ∧ linkedCycle.rst = false ∧ idle.state ≠ .hdr ∧
    ¬(idle.state = .reading ∧ idle.state = .idle ∧ idle.xferCount = idle.payloadSize) := by decide

/-- An even count, and another format. -/
theorem test_witness_PendMattersOnlyMidPixel :
    (let s := reading 1 1 2 0;
      ¬(s.state = .reading ∧ s.reqFmt = 2 ∧ s.xferCount.toNat % 2 = 1) ∧ (after s (byteCycle 1)).isSome = true) ∧
    (let s := reading 1 2 1 1;
      ¬(s.state = .reading ∧ s.reqFmt = 2 ∧ s.xferCount.toNat % 2 = 1)) := by decide

theorem test_witness_SetWinsOverClear :
    (linkedCycle.rst = false ∧ linkedCycle.busEn = false) ∧ linked linkedCycle = true ∧ idle.state = .idle ∧
    (linked (byteCycle 3) = true ∧ (inHeader 5).state = .hdr ∧ (inHeader 5).hdrIdx = 5 ∧ (byteCycle 3).rxValid = true ∧
      headerTarget 1 (halfOf 0 2) (halfOf 0 2) 3 = .hdrDecoded ∧
      (inHeader 5).hdrRaw = ⟨1, 0, 2, 0, 2, 0⟩ ∧ (byteCycle 3).rxData = 3) := by decide

theorem test_witness_IrqIsEnabledPending :
    (outputs { idle with irqStatus := 0x40, irqEnable := 0x40 } linkedCycle).irq = true := by decide

theorem test_witness_ErrorClasses :
    ∀ n ∈ [0, 1, 4, 5, 8, 9, 10, 11, 15], (BitVec.ofNat 4 n).toNat = n := by decide

/-- The loss, the link still down, and a quiet cycle in WRITING (the byte ready, the sink stalled) and in HDR. -/
theorem test_witness_LinkLossIsFatal :
    (downCycle.rst = false ∧ downCycle.linkUp = false ∧ downCycle.busEn = false) ∧ idle.linkQ = true ∧
    (let s := { idle with linkQ := false }; s.linkQ = false ∧ s.state = .idle) ∧
    (let c := linkedCycle;
      c.rst = false ∧ c.linkUp = true ∧ ¬(c.busEn = true ∧ c.busWe = true) ∧ c.rxValid = false ∧ c.txReady = false ∧
        c.rxTimeout = false ∧ c.txFail = false) ∧
    ((writing 1 1 1 0).state = .writing ∧ txValid (writing 1 1 1 0) linkedCycle = true) ∧
    ((inHeader 5).state = .hdr ∧ rxReady (inHeader 5) linkedCycle = true) := by decide

theorem test_witness_CountersCountEvents :
    (after scanning (byteCycle 0)).map (fun t => t.scanCount) = some 1 ∧ (byteCycle 0).rst = false := by decide

/-- An invalid sixth byte, a time-out without a byte, and their steps, which change RESYNC_COUNT and lead to SCAN. -/
theorem test_witness_ResyncStaysInCycle :
    Invariant (inHeader 5) ∧ (inHeader 5).state = .hdr ∧
    (linked (byteCycle 9) = true ∧ (byteCycle 9).rxValid = true ∧ (inHeader 5).hdrIdx = 5 ∧
      (Instr.hdr 1 (halfOf 0 2) (halfOf 0 2) (byteCycle 9).rxData).wellFormed = false ∧
      (after (inHeader 5) (byteCycle 9)).map (fun t => (t.state, t.resyncCount)) = some (.scan, 1)) ∧
    (linked timeoutCycle = true ∧ timeoutCycle.rxTimeout = true ∧ timeoutCycle.rxValid = false ∧
      (after (inHeader 5) timeoutCycle).map (fun t => (t.state, t.resyncCount)) = some (.scan, 1)) ∧
    (byteCycle 9).rst = false ∧ (inHeader 5).resyncCount ≠ 1 :=
  ⟨test_invariant_header, by decide⟩

theorem test_witness_ResetCycle : resetCycle.rst = true := by decide

/-- A command word, the marker's second byte, and a transmit handshake. -/
theorem test_witness_StepRunsDecodedInstruction :
    ((commandCycle 1).rst = false ∧ writesCmd (commandCycle 1) = true ∧
      decode (.command (commandCycle 1).busWdata) = .ok .poll) ∧
    (let s := { scanning with seenM0 := true, inputs := [byteCycle 0x54] };
      (currentInput s).rxValid = true ∧ rxReady s (currentInput s) = true ∧
      fetchReceived (currentInput s).rxData (beginCycle s) = .ok .sync) ∧
    (let s := { writing 1 1 1 0 with inputs := [readyCycle] };
      txValid s (currentInput s) = true ∧ (currentInput s).txReady = true ∧
      decode (.format (s.reqFmt.setWidth 8)) = .ok .fmtGrayscale) := by decide

/-- The working state of the second and third clause, in a cycle with no bus write. -/
theorem test_witness_StepRunsDecodedInstruction_bus :
    let s := { scanning with seenM0 := true, inputs := [byteCycle 0x54] }
    busPhase s.state (beginCycle s) = .next (beginCycle s) := rfl

/-- A byte that moves in each direction; a CANCEL in SCAN; a step in WRITING that the sink stalls, and the port after it. -/
theorem test_witness_HandshakeHalfDuplexAndKept :
    (let s := { scanning with inputs := [byteCycle 0] };
      (currentInput s).rxValid = true ∧ rxReady s (currentInput s) = true) ∧
    (scanning.state = .scan ∧ hostCommand (commandCycle 4) = some .cancel) ∧
    (let s := { writing 1 1 1 0 with inputs := [readyCycle] };
      txValid s (currentInput s) = true) ∧
    ((outputs (writing 1 1 1 0) linkedCycle).tx = some 0x7F ∧ linkedCycle.txReady = false ∧
      (after (writing 1 1 1 0) linkedCycle).map (fun t => (t.state, (outputs t linkedCycle).tx)) =
        some (.writing, some 0x7F) ∧
      linkedCycle.rst = false ∧ linkedCycle.linkUp = true) := by decide

theorem test_witness_IgnoredEvents :
    (idle.state ≠ .hdr ∧ idle.state ≠ .reading) ∧ idle.state ≠ .writing ∧ rxReady idle linkedCycle = false ∧
    txValid idle linkedCycle = false := by decide

theorem test_witness_ReadUnitOutputs :
    scanning.state = .scan ∧ (inHeader 0).state = .hdr ∧
    (∀ k : Fin 6, (inHeader k).hdrIdx = 0 ∨ (inHeader k).hdrIdx = 1 ∨ (inHeader k).hdrIdx = 2 ∨ (inHeader k).hdrIdx = 3 ∨
      (inHeader k).hdrIdx = 4 ∨ (inHeader k).hdrIdx = 5) ∧
    (reading 1 1 1 0).state = .reading ∧ idle.state = .idle := by decide

/-- Leaving WRITING, a stalled sink, and a draw after a byte is taken. -/
theorem test_witness_EncoderReadyBit :
    Invariant (writing 1 1 1 0) ∧
    (after (writing 1 1 1 0) readyCycle).map (fun t => decide (t.state ≠ .writing)) = some true ∧
    ((after (writing 1 1 1 0) linkedCycle).map (fun t => t.state) = some .writing ∧ (writing 1 1 1 0).encRdy = true ∧
      linkedCycle.txReady = false) ∧
    (after (writing 1 1 2 0) { readyCycle with encDraw := true }).map (fun t => (t.state, t.encRdy)) =
      some (.writing, true) :=
  ⟨test_invariant_writing, by decide⟩

/-- A source that offers a byte in every cycle, and a sink and an encoder that are ready in every cycle. -/
theorem test_witness_WaitsEnd :
    (Invariant (inHeader 5) ∧ (inHeader 5).state = .hdr ∧ SourceDuty (inHeader 5) fun _ => byteCycle 3) ∧
    (Invariant (reading 1 2 1 0) ∧ (reading 1 2 1 0).state = .reading ∧
      SourceDuty (reading 1 2 1 0) fun _ => byteCycle 3) ∧
    (Invariant (writing 1 1 1 0) ∧ (writing 1 1 1 0).state = .writing ∧
      EncoderFair (writing 1 1 1 0) (fun _ => { readyCycle with encDraw := true }) ∧
      SinkDuty (writing 1 1 1 0) fun _ => { readyCycle with encDraw := true }) :=
  ⟨⟨test_invariant_header, rfl, fun n => ⟨n, le_rfl, fun _ _ => .inr (.inl rfl)⟩⟩,
    ⟨test_invariant_reading_gray, rfl, fun n => ⟨n, le_rfl, fun _ _ => .inr (.inl rfl)⟩⟩,
    ⟨test_invariant_writing, rfl, fun n => ⟨n, le_rfl, fun _ _ => .inr rfl⟩,
      fun n => ⟨n, le_rfl, fun _ _ => .inr (.inl rfl)⟩⟩⟩

theorem test_witness_StepKeepsInvariant :
    Invariant (decoded 1 2 2 3) ∧ (after (decoded 1 2 2 3) (commandCycle 2)).map (fun t => t.state) = some .reading :=
  ⟨test_invariant_decoded, by decide⟩

theorem test_witness_TransitionTable :
    Invariant scanning ∧ (after scanning downCycle).map (fun t => t.state) = some .idle :=
  ⟨test_invariant_scanning, by decide⟩

end Sys2Proof.Tests
end

namespace Sys2Proof.Proofs

open Sys2Proof.Machine Sys2Proof.Laws

/-! ### The record of the ports

A cycle works on a state that carries what stands at its ports, `inp` and `out`. The operations below read no more of them
than the link and the byte streams, so two cycles that differ in a bus read run in lockstep. -/

/-- The state s with other ports recorded. -/
def withPorts (c : CycleIn) (o : PortOut) (s : State) : State := { s with inp := c, out := o }

/-- What the begin of a cycle makes of s besides recording the ports: r remains of the inputs, and the masks are at 0. -/
def sampled (s : State) (r : List CycleIn) : State :=
  { s with inputs := r, cycle := s.cycle + 1, irqSet := 0, irqClear := 0 }

theorem beginCycle_fed_eq_withPorts (s : State) (c : CycleIn) (r : List CycleIn) :
    beginCycle (s.fed (c :: r)) = withPorts c (outputs s c) (sampled s r) := rfl

section
variable (c : CycleIn) (o : PortOut) (s : State)

@[simp] theorem withPorts_state : (withPorts c o s).state = s.state := rfl
@[simp] theorem withPorts_reqFmt : (withPorts c o s).reqFmt = s.reqFmt := rfl
@[simp] theorem withPorts_inp : (withPorts c o s).inp = c := rfl
@[simp] theorem withPorts_out : (withPorts c o s).out = o := rfl

theorem withPorts_self : withPorts s.inp s.out s = s := rfl

theorem withPorts_ite (q : Prop) [Decidable q] (t : State) :
    withPorts c o (if q then s else t) = if q then withPorts c o s else withPorts c o t :=
  apply_ite (withPorts c o) q s t

/-! ### Operations that read no port -/

theorem enterError_withPorts (e : ErrorEntry) :
    enterError e (withPorts c o s) = withPorts c o (enterError e s) := by
  cases e <;> rfl

theorem scanByte_withPorts (b : Byte) : scanByte b (withPorts c o s) = withPorts c o (scanByte b s) := by
  simp only [scanByte, withPorts_ite]
  rfl

theorem headerComplete_withPorts (dir : Byte) (height width : Half) (fmt : Byte) :
    headerComplete dir height width fmt (withPorts c o s) =
      withPorts c o (headerComplete dir height width fmt s) := by
  simp only [headerComplete, withPorts_ite, ← enterError_withPorts]
  rfl

theorem hdrByte_withPorts (b : Byte) : hdrByte b (withPorts c o s) = withPorts c o (hdrByte b s) := by
  simp only [hdrByte, withPorts_ite, ← headerComplete_withPorts]
  rfl

theorem directionByte_withPorts (b : Byte) :
    directionByte b (withPorts c o s) = withPorts c o (directionByte b s) := by
  simp only [directionByte, withPorts_ite, ← hdrByte_withPorts]
  rfl

theorem decodeAdvance_withPorts : decodeAdvance (withPorts c o s) = withPorts c o (decodeAdvance s) := by
  simp only [decodeAdvance, withPorts_ite]
  rfl

theorem readPlainByte_withPorts (b : Byte) :
    readPlainByte b (withPorts c o s) = withPorts c o (readPlainByte b s) := by
  simp only [readPlainByte, ← decodeAdvance_withPorts]
  rfl

theorem readPackedByte_withPorts (b : Byte) :
    readPackedByte b (withPorts c o s) = withPorts c o (readPackedByte b s) := by
  simp only [readPackedByte, ← decodeAdvance_withPorts, withPorts_ite]
  rfl

theorem transmitByte_withPorts : transmitByte (withPorts c o s) = withPorts c o (transmitByte s) := by
  simp only [transmitByte, withPorts_ite]
  rfl

theorem plainByte_withPorts (b : Byte) : plainByte b (withPorts c o s) = withPorts c o (plainByte b s) := by
  cases hs : s.state <;> simp only [plainByte, withPorts_state, hs]
  case scan => exact scanByte_withPorts c o s b
  case hdr => exact hdrByte_withPorts c o s b

theorem fetchReceived_withPorts (b : Byte) : fetchReceived b (withPorts c o s) = fetchReceived b s := rfl

theorem timeoutStep_withPorts (s0 : EngineState) (idx0 : Fin 6) (moved : Bool) :
    timeoutStep s0 idx0 moved (withPorts c o s) = withPorts c o (timeoutStep s0 idx0 moved s) := by
  cases s0
  case hdr => simp only [timeoutStep, withPorts_ite, enterError_withPorts]
  case reading => simp only [timeoutStep, enterError_withPorts]
  all_goals rfl

theorem formatCode_withPorts {code : BitVec 2} {readByte : Byte → State → State} {c : CycleIn} (o : PortOut) {s : State}
    (hread : ∀ b, readByte b (withPorts c o s) = withPorts c o (readByte b s)) (hrx : c.rxData = s.inp.rxData) :
    formatCode code readByte (withPorts c o s) = withPorts c o (formatCode code readByte s) := by
  cases hs : s.state <;> simp only [formatCode, withPorts_state, hs]
  case hdr => simp only [withPorts_ite, ← hdrByte_withPorts]; rfl
  case reading => simp only [withPorts_ite, ← hread, ← hrx]; rfl
  case writing => simp only [withPorts_ite, ← transmitByte_withPorts]; rfl

theorem linkPhase_withPorts {c : CycleIn} (o : PortOut) {s : State} (h : c.linkUp = s.inp.linkUp) :
    linkPhase (withPorts c o s) = withPorts c o (linkPhase s) := by
  simp only [linkPhase, withPorts_ite, ← enterError_withPorts, ← h]
  rfl

theorem writeFailStep_withPorts {c : CycleIn} (o : PortOut) {s : State} (s0 : EngineState)
    (h : c.txFail = s.inp.txFail) : writeFailStep s0 (withPorts c o s) = withPorts c o (writeFailStep s0 s) := by
  simp only [writeFailStep, withPorts_ite, ← enterError_withPorts, ← h]
  rfl

theorem encoderPhase_withPorts {c : CycleIn} (o : PortOut) {s : State} (h : c.encDraw = s.inp.encDraw) :
    encoderPhase (withPorts c o s) = withPorts c o (encoderPhase s) := by
  simp only [encoderPhase, withPorts_ite, ← h]
  rfl

theorem encoderPhase_inp (s : State) : (encoderPhase s).inp = s.inp := by
  rcases encoderPhase_cases s with ⟨-, -, e⟩ | ⟨-, e⟩ <;> rw [e]

theorem commit_withPorts {c : CycleIn} (o : PortOut) {s : State} (h : c.linkUp = s.inp.linkUp) :
    commit (withPorts c o s) = withPorts c o (commit s) := by
  simp only [commit, ← h]
  rfl

end

/-! ### Runs decided by the link and the byte streams -/

/-- The ports d, p have the link and the byte streams of c, o; reset, the bus access, `bus_rdata` and the remaining outputs
are free. -/
structure SameStream (c : CycleIn) (o : PortOut) (d : CycleIn) (p : PortOut) : Prop where
  linkUp : d.linkUp = c.linkUp
  rxValid : d.rxValid = c.rxValid
  rxData : d.rxData = c.rxData
  rxTimeout : d.rxTimeout = c.rxTimeout
  txReady : d.txReady = c.txReady
  txFail : d.txFail = c.txFail
  encDraw : d.encDraw = c.encDraw
  rxReady : p.rxReady = o.rxReady
  tx : p.tx = o.tx

theorem SameStream.refl (c : CycleIn) (o : PortOut) : SameStream c o c o :=
  ⟨rfl, rfl, rfl, rfl, rfl, rfl, rfl, rfl, rfl⟩

/-- What runs under some ports answers next, with the same state for all ports that have the link and the byte streams of
c, o, but for the record of the ports itself. -/
def StreamDecides (c : CycleIn) (o : PortOut) (x : CycleIn → PortOut → Host.Outcome State Fault Refusal) : Prop :=
  ∃ t, ∀ d p, SameStream c o d p → x d p = .next (withPorts d p t)

section
variable {c : CycleIn} {o : PortOut} {x y : CycleIn → PortOut → Host.Outcome State Fault Refusal}

theorem StreamDecides.ite {q : CycleIn → PortOut → Prop} [∀ d p, Decidable (q d p)]
    (hq : ∀ d p, SameStream c o d p → (q d p ↔ q c o)) (hx : q c o → StreamDecides c o x)
    (hy : ¬q c o → StreamDecides c o y) : StreamDecides c o fun d p => if q d p then x d p else y d p := by
  by_cases h : q c o
  · obtain ⟨t, ht⟩ := hx h
    exact ⟨t, fun d p hs => (if_pos ((hq d p hs).mpr h)).trans (ht d p hs)⟩
  · obtain ⟨t, ht⟩ := hy h
    exact ⟨t, fun d p hs => (if_neg (mt (hq d p hs).mp h)).trans (ht d p hs)⟩

theorem StreamDecides.andThen {f : CycleIn → PortOut → State → Host.Outcome State Fault Refusal}
    (hx : StreamDecides c o x) (hf : ∀ t, StreamDecides c o fun d p => f d p (withPorts d p t)) :
    StreamDecides c o fun d p => andThen (x d p) (f d p) := by
  obtain ⟨t, ht⟩ := hx
  obtain ⟨u, hu⟩ := hf t
  exact ⟨u, fun d p hs => (congrArg (Machine.andThen · (f d p)) (ht d p hs)).trans (hu d p hs)⟩

theorem StreamDecides.answers (hx : StreamDecides c o x) : ∃ t, x c o = .next (withPorts c o t) := by
  obtain ⟨t, ht⟩ := hx
  exact ⟨t, ht c o (.refl c o)⟩

theorem StreamDecides.congr (hx : StreamDecides c o x) (hxy : ∀ d p, SameStream c o d p → y d p = x d p) :
    StreamDecides c o y := by
  obtain ⟨t, ht⟩ := hx
  exact ⟨t, fun d p h => (hxy d p h).trans (ht d p h)⟩

variable (c o) (s : State)

/-! ### Instructions -/

theorem execPoll_streamDecides : StreamDecides c o fun d p => execPoll (withPorts d p s) :=
  .ite (fun _ _ _ => Iff.rfl) (fun _ => ⟨reject s, fun _ _ _ => rfl⟩) fun _ =>
    .ite (fun d _ h => by simp only [withPorts_inp, h.linkUp])
      (fun _ => ⟨enterError .linkFatal s, fun _ _ _ => rfl⟩)
      (fun _ => ⟨{ s with errCode := .none, seenM0 := false, hdrIdx := 0, state := .scan }, fun _ _ _ => rfl⟩)

theorem execRead_streamDecides : StreamDecides c o fun d p => execRead (withPorts d p s) :=
  .ite (fun _ _ _ => Iff.rfl) (fun _ => ⟨reject s, fun _ _ _ => rfl⟩) fun _ =>
    .ite (fun _ _ _ => Iff.rfl) (fun _ => ⟨enterError (.cycleFail .bufOverflow) s, fun _ _ _ => rfl⟩)
      (fun _ => ⟨{ s with xferCount := 0, state := .reading }, fun _ _ _ => rfl⟩)

theorem execWrite_streamDecides : StreamDecides c o fun d p => execWrite (withPorts d p s) :=
  .ite (fun _ _ _ => Iff.rfl) (fun _ => ⟨reject s, fun _ _ _ => rfl⟩) fun _ =>
    .ite (fun _ _ _ => Iff.rfl) (fun _ => ⟨reject s, fun _ _ _ => rfl⟩)
      (fun _ => ⟨{ s with xferCount := 0, encRdy := false, state := .writing }, fun _ _ _ => rfl⟩)

theorem execCancel_streamDecides : StreamDecides c o fun d p => execCancel (withPorts d p s) :=
  .ite (fun _ _ _ => Iff.rfl) (fun _ => ⟨enterError .cancelled s, fun _ _ _ => rfl⟩)
    (fun _ => ⟨reject s, fun _ _ _ => rfl⟩)

theorem execSync_streamDecides : StreamDecides c o fun d p => execSync (withPorts d p s) :=
  .ite (fun _ _ _ => Iff.rfl) (fun _ => ⟨scanByte 0x54 s, fun d p _ => congrArg _ (scanByte_withPorts d p s _)⟩)
    (fun _ => ⟨s, fun _ _ _ => rfl⟩)

theorem execHdr_streamDecides (dir : Byte) (height width : Half) (fmt : Byte) :
    StreamDecides c o fun d p => execHdr dir height width fmt (withPorts d p s) :=
  .ite (fun _ _ _ => Iff.rfl)
    (fun _ => ⟨_, fun d p _ => congrArg _ (headerComplete_withPorts d p
      { s with hdrRaw := headerBytes dir height width fmt, hdrIdx := 0 } dir height width fmt)⟩)
    (fun _ => ⟨s, fun _ _ _ => rfl⟩)

theorem formatCode_streamDecides {code : BitVec 2} {readByte : Byte → State → State}
    (hread : ∀ d p t b, readByte b (withPorts d p t) = withPorts d p (readByte b t)) :
    StreamDecides c o fun d p => .next (formatCode code readByte (withPorts d p s)) :=
  ⟨formatCode code readByte (withPorts c o s), fun d p h =>
    congrArg _ (formatCode_withPorts p (s := withPorts c o s) (hread d p _) h.rxData)⟩

/-- An instruction reads of the ports the link and the received byte only. -/
theorem exec_streamDecides (i : Instr) : StreamDecides c o fun d p => exec i (withPorts d p s) := by
  cases i with
  | poll => exact execPoll_streamDecides c o s
  | read => exact execRead_streamDecides c o s
  | write => exact execWrite_streamDecides c o s
  | cancel => exact execCancel_streamDecides c o s
  | sync => exact execSync_streamDecides c o s
  | hdr dir height width fmt => exact execHdr_streamDecides c o s dir height width fmt
  | dirDeviceWrites => exact ⟨_, fun d p _ => congrArg _ (directionByte_withPorts d p s _)⟩
  | dirDeviceReads => exact ⟨_, fun d p _ => congrArg _ (directionByte_withPorts d p s _)⟩
  | fmtGrayscale => exact formatCode_streamDecides c o s readPlainByte_withPorts
  | fmtRGB565 => exact formatCode_streamDecides c o s readPackedByte_withPorts
  | fmtRGB888 => exact formatCode_streamDecides c o s readPlainByte_withPorts

/-! ### Phases -/

theorem linkPhase_streamDecides : StreamDecides c o fun d p => .next (linkPhase (withPorts d p s)) :=
  ⟨linkPhase (withPorts c o s), fun _ p h =>
    congrArg _ (linkPhase_withPorts p (s := withPorts c o s) h.linkUp)⟩

theorem receivePhase_streamDecides : StreamDecides c o fun d p => receivePhase (withPorts d p s) := by
  cases hi : fetchReceived c.rxData s with
  | ok i =>
    refine (exec_streamDecides c o s i).congr fun d p h => ?_
    simp only [receivePhase, withPorts_inp, fetchReceived_withPorts, h.rxData, hi]
  | error e =>
    refine ⟨plainByte c.rxData s, fun d p h => ?_⟩
    simp only [receivePhase, withPorts_inp, fetchReceived_withPorts, h.rxData, hi, plainByte_withPorts]

theorem transmitPhase_streamDecides : StreamDecides c o fun d p => transmitPhase (withPorts d p s) := by
  cases hi : decode (.format (s.reqFmt.setWidth 8)) with
  | ok i =>
    refine (exec_streamDecides c o s i).congr fun d p _ => ?_
    simp only [transmitPhase, withPorts_reqFmt, hi]
  | error e =>
    refine ⟨transmitByte s, fun d p _ => ?_⟩
    simp only [transmitPhase, withPorts_reqFmt, hi, transmitByte_withPorts]

/-- Phases 3c and 3d. -/
theorem sendStep_streamDecides (s0 : EngineState) :
    StreamDecides c o fun d p =>
      andThen
        (if (withPorts d p s).out.tx.isSome && (withPorts d p s).inp.txReady then transmitPhase (withPorts d p s)
        else .next (withPorts d p s))
        fun s3 => .next (writeFailStep s0 s3) :=
  .andThen
    (.ite (fun d p h => by simp only [withPorts_inp, withPorts_out, h.tx, h.txReady])
      (fun _ => transmitPhase_streamDecides c o s) fun _ => ⟨s, fun _ _ _ => rfl⟩)
    fun t => ⟨writeFailStep s0 (withPorts c o t), fun d p h =>
      congrArg _ (writeFailStep_withPorts p (s := withPorts c o t) s0 h.txFail)⟩

theorem streamPhase_streamDecides (s0 : EngineState) (idx0 : Fin 6) :
    StreamDecides c o fun d p => streamPhase s0 idx0 (withPorts d p s) := by
  refine .ite (fun _ _ _ => Iff.rfl) (fun _ => ⟨s, fun _ _ _ => rfl⟩) fun _ => ?_
  refine .andThen (.ite (fun d p h => ?_) (fun _ => receivePhase_streamDecides c o s) fun _ => ⟨s, fun _ _ _ => rfl⟩)
    fun t => ?_
  · simp only [withPorts_inp, withPorts_out, h.rxValid, h.rxReady]
  · refine (sendStep_streamDecides c o
      (if c.rxTimeout = true ∧ t.state = s0 then timeoutStep s0 idx0 (c.rxValid && o.rxReady) t else t)
      s0).congr fun d p h => ?_
    simp only [withPorts_inp, withPorts_out, withPorts_state, withPorts_ite, timeoutStep_withPorts, h.rxTimeout,
      h.rxValid, h.rxReady]

/-- Phases 4 and 5. -/
theorem commit_encoderPhase_streamDecides :
    StreamDecides c o fun d p => .next (commit (encoderPhase (withPorts d p s))) := by
  refine ⟨commit (encoderPhase (withPorts c o s)), fun d p h => congrArg _ ?_⟩
  have hinp : (encoderPhase (withPorts c o s)).inp = c := encoderPhase_inp _
  calc commit (encoderPhase (withPorts d p (withPorts c o s)))
      = commit (withPorts d p (encoderPhase (withPorts c o s))) :=
        congrArg commit (encoderPhase_withPorts p h.encDraw)
    _ = withPorts d p (commit (encoderPhase (withPorts c o s))) :=
        commit_withPorts p (h.linkUp.trans (congrArg _ hinp.symm))

/-- Phases 3 to 5. -/
theorem laterPhases_streamDecides (s0 : EngineState) (idx0 : Fin 6) :
    StreamDecides c o fun d p =>
      andThen (streamPhase s0 idx0 (withPorts d p s)) fun s3 => .next (commit (encoderPhase s3)) :=
  .andThen (streamPhase_streamDecides c o s s0 idx0) (commit_encoderPhase_streamDecides c o)

end

/-! ### Whole cycles -/

/-- Whatever the host writes, phase 2 answers next and keeps the record of the ports. -/
theorem busPhase_answers (c : CycleIn) (o : PortOut) (s0 : EngineState) (s : State) :
    ∃ t, busPhase s0 (withPorts c o s) = .next (withPorts c o t) := by
  have hcommand : ∃ t, commandWrite c.busWdata (withPorts c o s) = .next (withPorts c o t) := by
    unfold commandWrite
    split
    · exact (exec_streamDecides c o s _).answers
    · exact ⟨reject s, rfl⟩
  have hdata : ∃ t, dataWrite s0 c.busW32 c.busAddr c.busWdata (withPorts c o s) = withPorts c o t := by
    obtain ⟨clear, enable, h, w, ch, m, e, -, -⟩ :=
      dataWrite_effect s0 c.busW32 c.busAddr c.busWdata (withPorts c o s)
    exact ⟨_, e.trans (withPorts_self _).symm⟩
  unfold busPhase
  split
  · split
    · exact hcommand
    · obtain ⟨t, ht⟩ := hdata
      exact ⟨t, congrArg _ ht⟩
  · exact ⟨s, rfl⟩

/-- Every step answers next, and it records the inputs and the outputs of its cycle (43_transfer_engine.md R151;
10_state.md R17). -/
theorem step_answers (s : State) :
    ∃ t, step s = .next t ∧ t.inp = currentInput s ∧ t.out = outputs s (currentInput s) := by
  suffices h : ∃ t, step s = .next (withPorts (currentInput s) (outputs s (currentInput s)) t) by
    obtain ⟨t, ht⟩ := h
    exact ⟨_, ht, rfl, rfl⟩
  by_cases hr : (currentInput s).rst = true
  · exact ⟨resetRegisters (beginCycle s), if_pos hr⟩
  obtain ⟨t1, h1⟩ :=
    (linkPhase_streamDecides (currentInput s) (outputs s (currentInput s)) (beginCycle s)).answers
  obtain ⟨t2, h2⟩ := busPhase_answers (currentInput s) (outputs s (currentInput s)) s.state t1
  obtain ⟨t3, h3⟩ := (laterPhases_streamDecides _ _ t2 s.state s.hdrIdx).answers
  have hlink : linkPhase (beginCycle s) = withPorts (currentInput s) (outputs s (currentInput s)) t1 :=
    Host.Outcome.next.inj h1
  exact ⟨t3, (if_neg hr).trans (by rw [hlink, h2, andThen_next, h3])⟩

/-- Two cycles with the same link and byte streams, in both of which phase 2 does nothing, lead to the same state but for
the record of the ports. -/
theorem step_fed_lockstep {s : State} {c d : CycleIn} (r : List CycleIn) (hrst : d.rst = c.rst)
    (hstream : SameStream c (outputs s c) d (outputs s d))
    (hc : ∀ t, busPhase s.state (withPorts c (outputs s c) t) = .next (withPorts c (outputs s c) t))
    (hd : ∀ t, busPhase s.state (withPorts d (outputs s d) t) = .next (withPorts d (outputs s d) t)) :
    ∃ t, step (s.fed (c :: r)) = .next (withPorts c (outputs s c) t) ∧
      step (s.fed (d :: r)) = .next (withPorts d (outputs s d) t) := by
  by_cases hr : c.rst = true
  · exact ⟨resetRegisters (sampled s r), if_pos hr, if_pos (hrst.trans hr)⟩
  obtain ⟨t1, h1⟩ := linkPhase_streamDecides c (outputs s c) (sampled s r)
  obtain ⟨t, ht⟩ := laterPhases_streamDecides c (outputs s c) t1 s.state s.hdrIdx
  have run : ∀ e : CycleIn, e.rst = c.rst → SameStream c (outputs s c) e (outputs s e) →
      (∀ u, busPhase s.state (withPorts e (outputs s e) u) = .next (withPorts e (outputs s e) u)) →
      step (s.fed (e :: r)) = .next (withPorts e (outputs s e) t) := by
    intro e he hs hbus
    have hlink : linkPhase (beginCycle (s.fed (e :: r))) = withPorts e (outputs s e) t1 := by
      rw [beginCycle_fed_eq_withPorts]
      exact Host.Outcome.next.inj (h1 e _ hs)
    calc step (s.fed (e :: r))
        = andThen (busPhase s.state (linkPhase (beginCycle (s.fed (e :: r))))) fun s2 =>
            andThen (streamPhase s.state s.hdrIdx s2) fun s3 => .next (commit (encoderPhase s3)) :=
          if_neg (he ▸ hr)
      _ = .next (withPorts e (outputs s e) t) := by rw [hlink, hbus, andThen_next]; exact ht e _ hs
  exact ⟨t, run c rfl (.refl _ _) hc, run d hrst hstream hd⟩

/-! ### A bus read -/

/-- Phase 2 is the bus write: it does nothing in a cycle without one. -/
theorem busPhase_of_noWrite (s0 : EngineState) {s : State} (h : (s.inp.busEn && s.inp.busWe) = false) :
    busPhase s0 s = .next s := by
  simp only [busPhase, h, Bool.false_eq_true, if_false]

theorem cancelNow_of_noWrite (s : State) {c : CycleIn} (h : (c.busEn && c.busWe) = false) :
    cancelNow s c = false := by
  simp only [cancelNow, h, Bool.false_and]

@[simp] theorem outputs_busRdata (s : State) (c : CycleIn) : (outputs s c).busRdata = busRdata s c := rfl

theorem busRdata_of_noRead (s : State) {c : CycleIn} (h : (c.busEn && !c.busWe) = false) : busRdata s c = 0 := by
  simp only [busRdata, h, Bool.false_eq_true, if_false]

theorem rxReady_of_noWrite (s : State) {c : CycleIn} (h : (c.busEn && c.busWe) = false) :
    rxReady s c =
      (!c.rst && c.linkUp && (s.state == .scan || s.state == .hdr || s.state == .reading)) := by
  simp only [rxReady, cancelNow_of_noWrite s h, Bool.not_false, Bool.and_true]

/-- Of the outputs, a read drives `bus_rdata` alone (10_state.md R22). -/
theorem outputs_read (s : State) {c : CycleIn} (w32 : Bool) (a v : Word) (h : c.busEn = false) :
    outputs s (withAccess c false w32 a v) = { outputs s c with busRdata := busValue s w32 a } := by
  have hrx : rxReady s (withAccess c false w32 a v) = rxReady s c :=
    (rxReady_of_noWrite s rfl).trans (rxReady_of_noWrite s (by rw [h, Bool.false_and])).symm
  simp only [outputs, hrx]
  rfl

/-- Settles O37: the read leaves the link and the byte streams as they are and phase 2 idle, so both cycles run in
lockstep. -/
theorem busReadHasNoSideEffect : Obligations.BusReadHasNoSideEffect := by
  unfold Obligations.BusReadHasNoSideEffect
  intro s c r w32 a v
  refine ⟨fun hen => ?_, ?_⟩
  · have hout := outputs_read s w32 a v hen
    have hstream : SameStream c (outputs s c) (withAccess c false w32 a v) (outputs s (withAccess c false w32 a v)) := by
      rw [hout]
      exact ⟨rfl, rfl, rfl, rfl, rfl, rfl, rfl, rfl, rfl⟩
    have hidle : (c.busEn && c.busWe) = false := by rw [hen, Bool.false_and]
    obtain ⟨t, hwithout, hwith⟩ := step_fed_lockstep (s := s) (c := c) r (d := withAccess c false w32 a v) rfl hstream
      (fun _ => busPhase_of_noWrite _ hidle) (fun _ => busPhase_of_noWrite _ rfl)
    refine ⟨_, hwithout, busRdata_of_noRead s (by rw [hen, Bool.false_and]), ?_⟩
    rw [hwith, hout]
    rfl
  · obtain ⟨t, ht, -, hout⟩ := step_answers (s.fed (withAccess c true w32 a v :: r))
    refine ⟨t, ht, ?_⟩
    rw [hout, currentInput_fed, outputs_busRdata]
    exact busRdata_of_noRead _ rfl

/-! ### The interrupt line -/

/-- The interrupt line is 1 exactly when some bit is both pending and enabled. -/
theorem irqLine_iff (s : State) :
    irqLine s = true ↔ ∃ i < 7, s.irqStatus.getLsbD i = true ∧ s.irqEnable.getLsbD i = true := by
  have hzero : s.irqStatus &&& s.irqEnable = 0 ↔
      ∀ i < 7, ¬(s.irqStatus.getLsbD i = true ∧ s.irqEnable.getLsbD i = true) := by
    simp [BitVec.eq_of_getLsbD_eq_iff]
  rw [irqLine, bne_iff_ne, ne_eq, hzero]
  push Not
  rfl

/-- STATUS shows the interrupt line at bit 9 (10_state.md R39). -/
theorem statusWord_getLsbD_nine (s : State) : (statusWord s).getLsbD 9 = irqLine s := by
  simp only [statusWord, BitVec.getLsbD_append]
  simp

/-- Settles O44. -/
theorem irqIsEnabledPending : Obligations.IrqIsEnabledPending :=
  fun s _ => ⟨irqLine_iff s, statusWord_getLsbD_nine s⟩

/-! ### The reset values -/

/-- BUF_BYTES is in its range (00_scope.md R7). -/
theorem config_bufBytes_range : 1 ≤ Config.bufBytes ∧ Config.bufBytes ≤ 16777216 :=
  ⟨Nat.le_add_left 1 _, Config.bufBytesLessOne.isLt⟩

/-- After reset no buffer byte is listed. -/
theorem reset_bufferByte (buf : BufId) (i : Nat) : State.reset.bufferByte buf i = Config.unwritten buf i := by
  cases buf <;> rfl

/-- Settles O49: the registers as State.reset writes them, then the buffers and BUF_BYTES. -/
theorem resetValues : Obligations.ResetValues :=
  ⟨rfl, rfl, rfl, rfl, rfl, rfl, rfl, rfl, rfl, rfl, rfl, rfl, rfl, rfl, rfl, rfl, rfl, rfl, rfl, rfl, rfl, rfl, rfl,
    rfl, rfl, reset_bufferByte, config_bufBytes_range⟩

/-! ### The read unit -/

theorem readUnit_scan {s : State} (hs : s.state = .scan) : readUnit s = (1, 1) := by
  simp only [readUnit, hs]

/-- A one-byte field: the direction or the format. -/
theorem readUnit_hdr_byte {s : State} (hs : s.state = .hdr) (hi : s.hdrIdx = 0 ∨ s.hdrIdx = 5) :
    readUnit s = (1, 1) := by
  rcases hi with hi | hi <;> simp only [readUnit, hs, hi]

/-- The first byte of the height or of the width. -/
theorem readUnit_hdr_high {s : State} (hs : s.state = .hdr) (hi : s.hdrIdx = 1 ∨ s.hdrIdx = 3) :
    readUnit s = (2, 2) := by
  rcases hi with hi | hi <;> simp only [readUnit, hs, hi]

/-- The second byte of the height or of the width. -/
theorem readUnit_hdr_low {s : State} (hs : s.state = .hdr) (hi : s.hdrIdx = 2 ∨ s.hdrIdx = 4) :
    readUnit s = (2, 1) := by
  rcases hi with hi | hi <;> simp only [readUnit, hs, hi]

theorem readUnit_reading {s : State} (hs : s.state = .reading) :
    readUnit s = (s.payloadSize, s.payloadSize - s.xferCount) := by
  simp only [readUnit, hs]

theorem readUnit_other {s : State} (hs : s.state = .idle ∨ s.state = .hdrDecoded ∨ s.state = .writing) :
    readUnit s = (0, 0) := by
  rcases hs with hs | hs | hs <;> simp only [readUnit, hs]

/-- The two outputs are the components of the read unit. -/
theorem outputs_readUnit {s : State} {len rem : Word} (c : CycleIn) (h : readUnit s = (len, rem)) :
    (outputs s c).rdUnitLen = len ∧ (outputs s c).rdUnitRem = rem :=
  ⟨congrArg Prod.fst h, congrArg Prod.snd h⟩

/-- Settles O55, a row of the table of R20 each. -/
theorem readUnitOutputs : Obligations.ReadUnitOutputs :=
  fun _ c =>
    ⟨fun hs => outputs_readUnit c (readUnit_scan hs),
      fun hs hi => outputs_readUnit c (readUnit_hdr_byte hs hi),
      fun hs hi => outputs_readUnit c (readUnit_hdr_high hs hi),
      fun hs hi => outputs_readUnit c (readUnit_hdr_low hs hi),
      fun hs => outputs_readUnit c (readUnit_reading hs),
      fun hs => outputs_readUnit c (readUnit_other hs)⟩

end Sys2Proof.Proofs

namespace Sys2Proof.Proofs

open Sys2Proof.Machine Sys2Proof.Laws

/-! ### The host while a header is read -/

/-- t is s after a host access that runs no command: only the interrupt masks, IRQ_ENABLE, the source descriptor and
SRC_BUF may differ. -/
def HostWrote (s t : State) : Prop :=
  ∃ set clear enable hh w c m,
    t = { s with
      irqSet := set, irqClear := clear, irqEnable := enable, srcH := hh, srcW := w, srcC := c, srcBuf := m }

/-- Where every command is rejected, phase 2 leaves the engine where it is. -/
theorem busPhase_of_rejects (s0 : EngineState) {s : State}
    (h : writesCmd s.inp = true → commandWrite s.inp.busWdata s = .next (reject s)) :
    ∃ t, busPhase s0 s = .next t ∧ HostWrote s t := by
  by_cases hwrite : (s.inp.busEn && s.inp.busWe) = true
  · by_cases hcmd : (s.inp.busW32 && s.inp.busAddr == 0) = true
    · have hw : writesCmd s.inp = true := by rwa [writesCmd, hwrite, Bool.true_and]
      exact ⟨reject s, by rw [busPhase, if_pos hwrite, if_pos hcmd, h hw],
        _, s.irqClear, s.irqEnable, s.srcH, s.srcW, s.srcC, s.srcBuf, rfl⟩
    · obtain ⟨clear, enable, hh, w, c, m, e, -, -⟩ :=
        dataWrite_effect s0 s.inp.busW32 s.inp.busAddr s.inp.busWdata s
      exact ⟨_, by rw [busPhase, if_pos hwrite, if_neg hcmd], s.irqSet, clear, enable, hh, w, c, m, e⟩
  · exact ⟨s, busPhase_of_noWrite s0 (Bool.eq_false_iff.mpr hwrite),
      s.irqSet, s.irqClear, s.irqEnable, s.srcH, s.srcW, s.srcC, s.srcBuf, rfl⟩

/-- In SCAN every command but CANCEL is rejected (43_transfer_engine.md R147). -/
theorem commandWrite_scan {w : Word} {s : State} (hs : s.state = .scan) (hw : w ≠ 4) :
    commandWrite w s = .next (reject s) := by
  rw [commandWrite_eq, if_neg hw]
  simp only [exec, execPoll, execRead, execWrite, hs, ne_eq, reduceCtorEq, not_false_eq_true, true_or, if_true,
    ite_self]

/-- A write of 4 to CMD is the CANCEL command. -/
theorem hostCommand_cancel {c : CycleIn} (hw : writesCmd c = true) (h4 : c.busWdata = 4) :
    hostCommand c = some .cancel := by
  unfold writesCmd at hw
  rw [hostCommand, if_pos hw, h4]
  rfl

theorem undisturbed_iff {c : CycleIn} :
    undisturbed c = true ↔ c.linkUp = true ∧ c.rst = false ∧ hostCommand c ≠ some .cancel := by
  simp only [undisturbed, linked, Bool.and_eq_true, Bool.not_eq_true', bne_iff_ne, and_assoc]

/-- In SCAN and HDR a cycle without CANCEL takes the offered byte (10_state.md R19). -/
theorem rxReady_of_undisturbed {s : State} {c : CycleIn} (hs : s.state = .scan ∨ s.state = .hdr)
    (hc : undisturbed c = true) : rxReady s c = true := by
  obtain ⟨hup, hrst, hcancel⟩ := undisturbed_iff.mp hc
  have hnow : cancelNow s c = false := by
    by_contra h
    simp only [cancelNow, Bool.not_eq_false, Bool.and_eq_true, beq_iff_eq] at h
    obtain ⟨⟨⟨hw, haddr⟩, h4⟩, -⟩ := h
    exact hcancel (hostCommand_cancel (by simp only [writesCmd, hw, haddr]; rfl) h4)
  rcases hs with hs | hs <;> simp only [rxReady, hup, hrst, hs, hnow] <;> rfl

/-- Phase 2 of such a cycle leaves the engine where it is. -/
theorem busPhase_of_undisturbed (s0 : EngineState) {s : State} (hs : s.state = .scan ∨ s.state = .hdr)
    (hc : undisturbed s.inp = true) : ∃ t, busPhase s0 s = .next t ∧ HostWrote s t := by
  refine busPhase_of_rejects s0 fun hw => ?_
  rcases hs with hs | hs
  · obtain ⟨-, -, hcancel⟩ := undisturbed_iff.mp hc
    exact commandWrite_scan hs fun h4 => hcancel (hostCommand_cancel hw h4)
  · exact commandWrite_busy _ (.inl hs)

/-! ### The byte step of SCAN and HDR -/

theorem plainByte_scan (b : Byte) {s : State} (hs : s.state = .scan) : plainByte b s = scanByte b s := by
  simp only [plainByte, hs]

theorem plainByte_hdr (b : Byte) {s : State} (hs : s.state = .hdr) : plainByte b s = hdrByte b s := by
  simp only [plainByte, hs]

/-- In SCAN and HDR phase 3a is the plain byte step, also when the byte completes a code. -/
theorem receivePhase_eq_plainByte {s : State} (hs : s.state = .scan ∨ s.state = .hdr) :
    receivePhase s = .next (plainByte s.inp.rxData s) := by
  rw [receivePhase_eq]
  rcases hs with hs | hs <;> simp only [plainByte, hs]

/-- A completed header leaves the coming inputs alone, and its engine does not transmit. -/
theorem headerComplete_leaves (dir : Byte) (height width : Half) (fmt : Byte) (s : State) :
    (headerComplete dir height width fmt s).inputs = s.inputs ∧
      (headerComplete dir height width fmt s).state ≠ .writing := by
  rcases headerComplete_cases dir height width fmt s with ⟨_, -, e⟩ | ⟨-, -, e⟩ | ⟨-, -, e⟩ <;> rw [e] <;>
    exact ⟨rfl, nofun⟩

/-- The byte step leaves the coming inputs alone, and its engine does not transmit. -/
theorem plainByte_leaves (b : Byte) {s : State} (hs : s.state = .scan ∨ s.state = .hdr) :
    (plainByte b s).inputs = s.inputs ∧ (plainByte b s).state ≠ .writing := by
  rcases hs with hs | hs
  · rw [plainByte_scan b hs]
    rcases scanByte_cases b s with ⟨-, -, e⟩ | ⟨-, e⟩ <;> rw [e]
    · exact ⟨rfl, nofun⟩
    · exact ⟨rfl, by simp only [hs]; nofun⟩
  · rw [plainByte_hdr b hs]
    by_cases h5 : s.hdrIdx = 5
    · rw [hdrByte_last b s h5]
      exact headerComplete_leaves _ _ _ _ _
    · rw [hdrByte_field b s h5]
      exact ⟨rfl, by simp only [hs]; nofun⟩

theorem plainByte_inp (b : Byte) (s : State) : (plainByte b s).inp = s.inp :=
  (congrArg State.inp (plainByte_withPorts s.inp s.out s b) :)

theorem plainByte_out (b : Byte) (s : State) : (plainByte b s).out = s.out :=
  (congrArg State.out (plainByte_withPorts s.inp s.out s b) :)

/-! ### A cycle of SCAN and HDR -/

/-- What a cycle of SCAN or HDR makes of the byte port: the byte step if a byte is offered. -/
def takeOffered (c : CycleIn) (s : State) : State := if c.rxValid = true then plainByte c.rxData s else s

theorem takeOffered_of_valid {c : CycleIn} (h : c.rxValid = true) (s : State) :
    takeOffered c s = plainByte c.rxData s := if_pos h

theorem takeOffered_of_idle {c : CycleIn} (h : c.rxValid = false) (s : State) : takeOffered c s = s :=
  if_neg (Bool.eq_false_iff.mp h)

theorem takeOffered_leaves (c : CycleIn) {s : State} (hs : s.state = .scan ∨ s.state = .hdr) :
    (takeOffered c s).inputs = s.inputs ∧ (takeOffered c s).state ≠ .writing := by
  unfold takeOffered
  split
  · exact plainByte_leaves _ hs
  · exact ⟨rfl, by rcases hs with hs | hs <;> rw [hs] <;> nofun⟩

theorem takeOffered_ports (c : CycleIn) (s : State) :
    (takeOffered c s).inp = s.inp ∧ (takeOffered c s).out = s.out := by
  unfold takeOffered
  split
  · exact ⟨plainByte_inp _ s, plainByte_out _ s⟩
  · exact ⟨rfl, rfl⟩

/-- Phase 3 of SCAN and HDR without a time-out: nothing is sent, and the offered byte is taken. -/
theorem streamPhase_listening (idx0 : Fin 6) {s : State} (hs : s.state = .scan ∨ s.state = .hdr)
    (hrx : s.out.rxReady = true) (htx : s.out.tx = none) (hto : s.inp.rxTimeout = false) :
    streamPhase s.state idx0 s = .next (takeOffered s.inp s) := by
  have hreceive : (if (s.inp.rxValid && s.out.rxReady) = true then receivePhase s else .next s) =
      .next (takeOffered s.inp s) := by
    rw [hrx, Bool.and_true, receivePhase_eq_plainByte hs, takeOffered, apply_ite Host.Outcome.next]
  obtain ⟨hinp, hout⟩ := takeOffered_ports s.inp s
  have hsend : writeFailStep s.state (takeOffered s.inp s) = takeOffered s.inp s := by
    rcases writeFailStep_cases s.state (takeOffered s.inp s) with ⟨-, -, hw, -⟩ | ⟨-, e⟩
    · exact absurd hw (takeOffered_leaves s.inp hs).2
    · exact e
  simp only [streamPhase, ne_eq, not_true_eq_false, if_false, hreceive, andThen_next, hinp, hto, Bool.false_eq_true,
    false_and, hout, htx, Option.isSome_none, Bool.false_and, hsend]

/-- A cycle of SCAN or HDR without CANCEL, time-out and link loss: the host may write, and the offered byte is taken. -/
theorem step_listening {s : State} {c : CycleIn} (r : List CycleIn) (hs : s.state = .scan ∨ s.state = .hdr)
    (hc : undisturbed c = true) (hto : c.rxTimeout = false) :
    ∃ u, HostWrote (beginCycle (s.fed (c :: r))) u ∧
      step (s.fed (c :: r)) = .next (commit (takeOffered c u)) := by
  obtain ⟨hup, hrst, -⟩ := undisturbed_iff.mp hc
  obtain ⟨u, hbus, hu⟩ := busPhase_of_undisturbed s.state (s := beginCycle (s.fed (c :: r))) hs hc
  refine ⟨u, hu, ?_⟩
  obtain ⟨hstate, hinp, hout⟩ : u.state = s.state ∧ u.inp = c ∧ u.out = outputs s c := by
    obtain ⟨_, _, _, _, _, _, _, rfl⟩ := hu
    exact ⟨rfl, rfl, rfl⟩
  have hus : u.state = .scan ∨ u.state = .hdr := hstate ▸ hs
  have hnotx : txValid s c = false := by
    refine Bool.eq_false_iff.mpr fun h => ?_
    obtain ⟨-, -, hw, -⟩ := txValid_iff.mp h
    rcases hs with hs | hs <;> exact nomatch hs.symm.trans hw
  have hstream : streamPhase s.state s.hdrIdx u = .next (takeOffered c u) := by
    have h := streamPhase_listening s.hdrIdx hus (by rw [hout]; exact rxReady_of_undisturbed hs hc)
      (by rw [hout, outputs_tx, hnotx]; rfl) (by rw [hinp]; exact hto)
    rwa [hstate, hinp] at h
  have hdraw : encoderPhase (takeOffered c u) = takeOffered c u := by
    rcases encoderPhase_cases (takeOffered c u) with ⟨hw, -, -⟩ | ⟨-, e⟩
    · exact absurd hw (takeOffered_leaves c hus).2
    · exact e
  calc step (s.fed (c :: r))
      = andThen (busPhase s.state (linkPhase (beginCycle (s.fed (c :: r))))) fun s2 =>
          andThen (streamPhase s.state s.hdrIdx s2) fun s3 => .next (commit (encoderPhase s3)) :=
        if_neg (Bool.eq_false_iff.mp hrst)
    _ = .next (commit (takeOffered c u)) := by
        rw [linkPhase_up hup, hbus, andThen_next, hstream, andThen_next, hdraw]

/-! ### How far a header has been taken -/

/-- The six field bytes in wire order. -/
def fieldBytes (r : HdrRaw) : List Byte := [r.b0, r.b1, r.b2, r.b3, r.b4, r.b5]

@[simp] theorem fieldBytes_length (r : HdrRaw) : (fieldBytes r).length = 6 := rfl

theorem fieldBytes_set (r : HdrRaw) (k : Fin 6) (b : Byte) : fieldBytes (r.set k b) = (fieldBytes r).set k b := by
  fin_cases k <;> rfl

theorem fieldBytes_injective : Function.Injective fieldBytes := by
  rintro ⟨a0, a1, a2, a3, a4, a5⟩ ⟨b0, b1, b2, b3, b4, b5⟩ h
  simpa [fieldBytes] using h

theorem encodeHeader_eq (dir : Byte) (height width : Half) (fmt : Byte) :
    encodeHeader dir height width fmt = 0x53 :: 0x54 :: fieldBytes (headerBytes dir height width fmt) := rfl

/-- The field bytes received so far. -/
def heldFields (s : State) : List Byte := (fieldBytes s.hdrRaw).take s.hdrIdx

theorem heldFields_length (s : State) : (heldFields s).length = s.hdrIdx := by
  simp only [heldFields, List.length_take, fieldBytes_length]
  omega

/-- A field byte but the last joins the held ones. -/
theorem heldFields_hdrByte (b : Byte) {s : State} (h : s.hdrIdx ≠ 5) :
    heldFields (hdrByte b s) = heldFields s ++ [b] := by
  have hidx : (s.hdrIdx + 1).val = s.hdrIdx.val + 1 := by omega
  rw [hdrByte_field b s h]
  simp only [heldFields, hidx, fieldBytes_set]
  rw [List.take_add_one, List.take_set_of_le (le_refl _), List.getElem?_set_self (by simp)]
  rfl

/-- The bytes bs of a header with these fields are still to come. -/
def Awaits (fields : HdrRaw) (bs : List Byte) (s : State) : Prop :=
  (s.state = .scan ∧ bs = 0x53 :: 0x54 :: fieldBytes fields) ∨
  (s.state = .scan ∧ s.seenM0 = true ∧ bs = 0x54 :: fieldBytes fields) ∨
  (s.state = .hdr ∧ heldFields s ++ bs = fieldBytes fields)

/-- The rest of a header is awaited in SCAN or HDR only. -/
theorem Awaits.listening {fields : HdrRaw} {bs : List Byte} {s : State} (h : Awaits fields bs s) :
    s.state = .scan ∨ s.state = .hdr := by
  rcases h with ⟨hs, -⟩ | ⟨hs, -⟩ | ⟨hs, -⟩
  · exact .inl hs
  · exact .inl hs
  · exact .inr hs

/-- Neither the begin of a cycle nor the host moves the header on. -/
theorem Awaits.hostWrote {fields : HdrRaw} {bs : List Byte} {s u : State} {cs : List CycleIn} (h : Awaits fields bs s)
    (hu : HostWrote (beginCycle (s.fed cs)) u) : Awaits fields bs u := by
  obtain ⟨_, _, _, _, _, _, _, rfl⟩ := hu
  exact h

/-- In HDR the bytes held and the bytes to come are six. -/
theorem hdrIdx_add_awaited {fields : HdrRaw} {bs : List Byte} {s : State} (h : heldFields s ++ bs = fieldBytes fields) :
    s.hdrIdx.val + bs.length = 6 := by
  rw [← heldFields_length, ← List.length_append, h, fieldBytes_length]

/-- Taking a byte of the header but the last. -/
theorem Awaits.byte {fields : HdrRaw} {b : Byte} {bs : List Byte} {s : State} (h : Awaits fields (b :: bs) s)
    (hbs : bs ≠ []) : Awaits fields bs (plainByte b s) := by
  rcases h with ⟨hs, hb⟩ | ⟨hs, hseen, hb⟩ | ⟨hs, hheld⟩
  · obtain ⟨rfl, rfl⟩ := List.cons.inj hb
    rw [plainByte_scan _ hs]
    rcases scanByte_cases 0x53 s with ⟨-, h54, -⟩ | ⟨-, e⟩
    · exact absurd h54 (by decide)
    · rw [e]
      exact .inr (.inl ⟨hs, rfl, rfl⟩)
  · obtain ⟨rfl, rfl⟩ := List.cons.inj hb
    rw [plainByte_scan _ hs]
    rcases scanByte_cases 0x54 s with ⟨-, -, e⟩ | ⟨hno, -⟩
    · rw [e]
      exact .inr (.inr ⟨rfl, rfl⟩)
    · exact absurd ⟨hseen, rfl⟩ hno
  · have hlen := List.length_pos_iff.mpr hbs
    have hidx := hdrIdx_add_awaited hheld
    have h5 : s.hdrIdx ≠ 5 := by
      intro h5
      have hval : s.hdrIdx.val = 5 := congrArg Fin.val h5
      rw [List.length_cons] at hidx
      omega
    rw [plainByte_hdr b hs]
    refine .inr (.inr ⟨?_, ?_⟩)
    · rw [hdrByte_field b s h5]
      exact hs
    · rw [heldFields_hdrByte b h5, List.append_assoc]
      exact hheld

/-- The header's last byte completes it with its fields. -/
theorem Awaits.lastByte {fields : HdrRaw} {b : Byte} {s : State} (h : Awaits fields [b] s) :
    plainByte b s =
      headerComplete fields.b0 (halfOf fields.b1 fields.b2) (halfOf fields.b3 fields.b4) fields.b5
        { s with hdrRaw := fields, hdrIdx := 0 } := by
  rcases h with ⟨-, hb⟩ | ⟨-, -, hb⟩ | ⟨hs, hheld⟩
  · exact absurd (congrArg List.length hb) (by simp)
  · exact absurd (congrArg List.length hb) (by simp)
  · have hidx := hdrIdx_add_awaited hheld
    have h5 : s.hdrIdx = 5 := Fin.ext (by simpa using hidx)
    have hfields : { s.hdrRaw with b5 := b } = fields :=
      fieldBytes_injective (by rw [← hheld, heldFields, h5]; rfl)
    rw [plainByte_hdr b hs, hdrByte_last b s h5, ← hfields]

/-! ### The run that takes a header -/

/-- The Request of these fields stands in t, live if its size fits 32 bits (40_frame_scanner.md R112, R113). -/
def LeavesRequest (dir : Byte) (height width : Half) (fmt : Byte) (t : State) : Prop :=
  t.reqDir = dir.setWidth 2 ∧ t.reqH = height ∧ t.reqW = width ∧ t.reqFmt = fmt.setWidth 2 ∧
    (payloadBytes height width (fmt.setWidth 2) ≤ 4294967295 →
      t.state = .hdrDecoded ∧ t.payloadSize.toNat = payloadBytes height width (fmt.setWidth 2)) ∧
    (4294967295 < payloadBytes height width (fmt.setWidth 2) →
      t.state = .idle ∧ t.errCode = .sizeOverflow ∧ t.payloadSize = 0)

/-- Completing a valid header leaves its Request (40_frame_scanner.md R104). -/
theorem headerComplete_leavesRequest {dir : Byte} {height width : Half} {fmt : Byte}
    (hwf : (Instr.hdr dir height width fmt).wellFormed = true) (s : State) :
    LeavesRequest dir height width fmt (headerComplete dir height width fmt s) := by
  rcases headerComplete_cases dir height width fmt s with ⟨_, hbad, -⟩ | ⟨-, hbig, e⟩ | ⟨-, hfits, e⟩
  · exact absurd hwf (Bool.eq_false_iff.mp hbad)
  · rw [e]
    exact ⟨rfl, rfl, rfl, rfl, fun hle => absurd hbig (Nat.not_lt.mpr hle), fun _ => ⟨rfl, rfl, rfl⟩⟩
  · rw [e]
    exact ⟨rfl, rfl, rfl, rfl, fun _ => ⟨rfl, Nat.mod_eq_of_lt (Nat.lt_succ_of_le hfits)⟩,
      fun hlt => absurd hlt (Nat.not_lt.mpr hfits)⟩

/-- The last byte of a valid header leaves its Request. -/
theorem Awaits.lastByte_leavesRequest {dir : Byte} {height width : Half} {fmt b : Byte} {s : State}
    (hwf : (Instr.hdr dir height width fmt).wellFormed = true)
    (h : Awaits (headerBytes dir height width fmt) [b] s) : LeavesRequest dir height width fmt (plainByte b s) := by
  rw [h.lastByte]
  simp only [headerBytes, halfOf_highByte_lowByte]
  exact headerComplete_leavesRequest hwf _

theorem fed_self (s : State) : s.fed s.inputs = s := rfl

/-- A run is its first step and the run from there. -/
theorem runCycles_succ (n : Nat) (s : State) : runCycles (n + 1) s = andThen (step s) (runCycles n) := by
  have hcore : Host.Core.step Sys2Proof.core s = step s := rfl
  simp only [runCycles, Host.Core.run, hcore]
  cases step s <;> rfl

theorem offeredBytes_of_valid {c : CycleIn} (h : c.rxValid = true) (r : List CycleIn) :
    offeredBytes (c :: r) = c.rxData :: offeredBytes r := by
  simp only [offeredBytes, List.filter_cons_of_pos h, List.map_cons]

theorem offeredBytes_of_idle {c : CycleIn} (h : c.rxValid = false) (r : List CycleIn) :
    offeredBytes (c :: r) = offeredBytes r := by
  simp only [offeredBytes, List.filter_cons_of_neg (Bool.eq_false_iff.mp h)]

theorem endsOffering_singleton (c : CycleIn) : endsOffering [c] = c.rxValid := by
  cases h : c.rxValid <;> simp [endsOffering, h]

theorem endsOffering_cons_cons (c d : CycleIn) (r : List CycleIn) :
    endsOffering (c :: d :: r) = endsOffering (d :: r) := rfl

/-- Cycles that end with an offer offer something. -/
theorem offeredBytes_ne_nil {cs : List CycleIn} (h : endsOffering cs = true) : offeredBytes cs ≠ [] := by
  induction cs with
  | nil => exact nomatch h
  | cons c r ih =>
    cases hv : c.rxValid with
    | true => rw [offeredBytes_of_valid hv]; exact List.cons_ne_nil _ _
    | false =>
      rw [offeredBytes_of_idle hv]
      cases r with
      | nil => rw [endsOffering_singleton, hv] at h; exact nomatch h
      | cons d r => exact ih h

/-- A cycle that is not the last takes the byte it offers, if it offers one, and the bytes after it stay to come. -/
theorem Awaits.cycle {fields : HdrRaw} {c : CycleIn} {r : List CycleIn} {s : State}
    (h : Awaits fields (offeredBytes (c :: r)) s) (hr : offeredBytes r ≠ []) :
    Awaits fields (offeredBytes r) (takeOffered c s) := by
  cases hv : c.rxValid with
  | true =>
    rw [offeredBytes_of_valid hv] at h
    rw [takeOffered_of_valid hv]
    exact h.byte hr
  | false =>
    rw [offeredBytes_of_idle hv] at h
    rwa [takeOffered_of_idle hv]

/-- From wherever in the header the engine is, cycles that offer the rest of it leave its Request. -/
theorem runCycles_leavesRequest {dir : Byte} {height width : Half} {fmt : Byte}
    (hwf : (Instr.hdr dir height width fmt).wellFormed = true) (cs : List CycleIn) :
    ∀ s : State, Awaits (headerBytes dir height width fmt) (offeredBytes cs) s → endsOffering cs = true →
      (∀ c ∈ cs, undisturbed c = true ∧ c.rxTimeout = false) →
      ∃ t, runCycles cs.length (s.fed cs) = .next t ∧ LeavesRequest dir height width fmt t := by
  induction cs with
  | nil => exact fun _ _ hend => nomatch hend
  | cons c r ih =>
    intro s hs hend hcs
    obtain ⟨hc, hto⟩ := hcs c List.mem_cons_self
    obtain ⟨u, hu, hstep⟩ := step_listening r hs.listening hc hto
    have hau : Awaits (headerBytes dir height width fmt) (offeredBytes (c :: r)) u := hs.hostWrote hu
    rw [List.length_cons, runCycles_succ, hstep, andThen_next]
    cases r with
    | nil =>
      have hv : c.rxValid = true := (endsOffering_singleton c).symm.trans hend
      refine ⟨commit (takeOffered c u), rfl, ?_⟩
      rw [takeOffered_of_valid hv]
      rw [offeredBytes_of_valid hv] at hau
      exact hau.lastByte_leavesRequest hwf
    | cons d r =>
      have hinputs : (commit (takeOffered c u)).inputs = d :: r := by
        obtain ⟨_, _, _, _, _, _, _, rfl⟩ := hu
        exact (takeOffered_leaves c hau.listening).1
      have hnext : Awaits (headerBytes dir height width fmt) (offeredBytes (d :: r)) (commit (takeOffered c u)) :=
        hau.cycle (offeredBytes_ne_nil hend)
      have hrun := ih _ hnext hend fun e he => hcs e (List.mem_cons_of_mem c he)
      rwa [← hinputs, fed_self, hinputs] at hrun

/-- Settles O5: by induction over the cycles, the engine awaits what is left of the header, and its last byte completes
it. -/
theorem headerRoundTrip : Obligations.HeaderRoundTrip := by
  unfold Obligations.HeaderRoundTrip
  intro s dir height width fmt cs hs hdir hheight hwidth hfmt hcs hoffered hend
  have hwf : (Instr.hdr dir height width fmt).wellFormed = true :=
    (wellFormed_hdr dir height width fmt).mpr ⟨⟨hdir, hheight, hwidth⟩, or_assoc.mpr hfmt⟩
  exact runCycles_leavesRequest hwf cs s (.inl ⟨hs, hoffered.trans (encodeHeader_eq dir height width fmt)⟩) hend hcs

end Sys2Proof.Proofs

namespace Sys2Proof.Proofs

open Sys2Proof.Machine Sys2Proof.Laws

/-! ### The host in a cycle that takes a byte

SCAN with no CANCEL in the cycle and HDR accept no command. What the host does there depends on its access alone, so two
cycles with the same access meet phase 3 in the same state. -/

/-- A host access where every command is rejected. -/
def hostAccess (s0 : EngineState) (c : CycleIn) (s : State) : State :=
  if (c.busEn && c.busWe) = true then
    if (c.busW32 && c.busAddr == 0) = true then reject s else dataWrite s0 c.busW32 c.busAddr c.busWdata s
  else s

/-- Such an access runs no command. -/
theorem hostAccess_hostWrote (s0 : EngineState) (c : CycleIn) (s : State) : HostWrote s (hostAccess s0 c s) := by
  unfold hostAccess
  split
  · split
    · exact ⟨_, s.irqClear, s.irqEnable, s.srcH, s.srcW, s.srcC, s.srcBuf, rfl⟩
    · obtain ⟨clear, enable, hh, w, ch, m, e, -, -⟩ := dataWrite_effect s0 c.busW32 c.busAddr c.busWdata s
      exact ⟨s.irqSet, clear, enable, hh, w, ch, m, e⟩
  · exact ⟨s.irqSet, s.irqClear, s.irqEnable, s.srcH, s.srcW, s.srcC, s.srcBuf, rfl⟩

/-- The host access moves neither the scanner nor the header. -/
theorem hostAccess_sampled (s0 : EngineState) (c : CycleIn) (s : State) (r : List CycleIn) :
    let u := hostAccess s0 c (sampled s r)
    u.state = s.state ∧ u.seenM0 = s.seenM0 ∧ u.scanCount = s.scanCount ∧ u.hdrIdx = s.hdrIdx ∧
      u.hdrRaw = s.hdrRaw := by
  obtain ⟨_, _, _, _, _, _, _, e⟩ := hostAccess_hostWrote s0 c (sampled s r)
  intro u
  rw [show u = _ from e]
  exact ⟨rfl, rfl, rfl, rfl, rfl⟩

/-- A data write reads no port. -/
theorem dataWrite_withPorts (c : CycleIn) (o : PortOut) (s : State) (s0 : EngineState) (w32 : Bool) (a v : Word) :
    dataWrite s0 w32 a v (withPorts c o s) = withPorts c o (dataWrite s0 w32 a v s) := by
  by_cases hs0 : s0 = .writing <;> simp only [dataWrite, hs0, if_true, if_false]
  all_goals
    repeat' split
    all_goals rfl

theorem rxReady_iff_of_listening {s : State} {c : CycleIn} (hs : s.state = .scan ∨ s.state = .hdr) :
    rxReady s c = true ↔ c.rst = false ∧ c.linkUp = true ∧ cancelNow s c = false := by
  rcases hs with hs | hs <;> simp [rxReady, hs, and_assoc]

/-- In HDR every cycle with the link up takes the offered byte, CANCEL or not (10_state.md R19). -/
theorem rxReady_of_linked {s : State} {c : CycleIn} (hs : s.state = .hdr) (hc : linked c = true) :
    rxReady s c = true := by
  simp only [linked, Bool.and_eq_true, Bool.not_eq_true'] at hc
  obtain ⟨hup, hrst⟩ := hc
  exact (rxReady_iff_of_listening (.inr hs)).mpr ⟨hrst, hup, by simp [cancelNow, hs]⟩

/-- Where the offered byte is taken, a command written in the same cycle is rejected (43_transfer_engine.md R147). -/
theorem commandWrite_of_listening {s t : State} {c : CycleIn} (hs : s.state = .scan ∨ s.state = .hdr)
    (hcancel : cancelNow s c = false) (hcmd : writesCmd c = true) (ht : t.state = s.state) :
    commandWrite c.busWdata t = .next (reject t) := by
  rcases hs with hs | hs
  · refine commandWrite_scan (ht.trans hs) fun h4 => ?_
    unfold writesCmd at hcmd
    simp only [cancelNow, hcmd, h4, hs, beq_self_eq_true, Bool.and_self] at hcancel
    exact nomatch hcancel
  · exact commandWrite_busy _ (.inl (ht.trans hs))

/-- Phase 2 of such a cycle. -/
theorem busPhase_eq_hostAccess {s t : State} {c : CycleIn} (o : PortOut) (hs : s.state = .scan ∨ s.state = .hdr)
    (hcancel : cancelNow s c = false) (ht : t.state = s.state) :
    busPhase s.state (withPorts c o t) = .next (withPorts c o (hostAccess s.state c t)) := by
  cases hwrite : c.busEn && c.busWe with
  | false => simp only [busPhase, hostAccess, withPorts_inp, hwrite, Bool.false_eq_true, if_false]
  | true =>
    cases hcmd : c.busW32 && c.busAddr == 0 with
    | false =>
      simp only [busPhase, hostAccess, withPorts_inp, hwrite, hcmd, Bool.false_eq_true, if_true, if_false,
        dataWrite_withPorts]
    | true =>
      simp only [busPhase, hostAccess, withPorts_inp, hwrite, hcmd, if_true]
      exact commandWrite_of_listening hs hcancel (by rw [writesCmd, hwrite, Bool.true_and, hcmd]) ht

/-! ### A cycle that takes a byte, with a time-out or without -/

/-- Phase 3b in a cycle that takes the byte it is offered. -/
def timeOut (s0 : EngineState) (idx0 : Fin 6) (c : CycleIn) (s : State) : State :=
  if c.rxTimeout = true ∧ s.state = s0 then timeoutStep s0 idx0 c.rxValid s else s

/-- A time-out means nothing to the scanner (40_frame_scanner.md R101). -/
theorem timeOut_scan (idx0 : Fin 6) (c : CycleIn) (s : State) : timeOut .scan idx0 c s = s := ite_self s

theorem timeOut_of_none {c : CycleIn} (h : c.rxTimeout = false) (s0 : EngineState) (idx0 : Fin 6) (s : State) :
    timeOut s0 idx0 c s = s :=
  if_neg fun ⟨hto, _⟩ => Bool.eq_false_iff.mp h hto

/-- The byte that completed its read unit voids the time-out (40_frame_scanner.md R107). -/
theorem timeOut_hdr_of_unitDone {idx0 : Fin 6} {c : CycleIn} (hv : c.rxValid = true) (h1 : idx0 ≠ 1) (h3 : idx0 ≠ 3)
    (s : State) : timeOut .hdr idx0 c s = s := by
  have hvoid : timeoutStep .hdr idx0 c.rxValid s = s := if_pos ⟨hv, h1, h3⟩
  rw [timeOut, hvoid, ite_self]

/-- Amid a read unit the time-out resynchronizes (40_frame_scanner.md R107). -/
theorem timeOut_hdr_of_unitOpen {idx0 : Fin 6} {c : CycleIn} (hto : c.rxTimeout = true)
    (hopen : c.rxValid = false ∨ idx0 = 1 ∨ idx0 = 3) {s : State} (hs : s.state = .hdr) :
    timeOut .hdr idx0 c s = enterError (.resync .incompleteHeader) s := by
  have hno : ¬(c.rxValid = true ∧ idx0 ≠ 1 ∧ idx0 ≠ 3) := by
    rintro ⟨hv, h1, h3⟩
    rcases hopen with h | h | h
    · exact Bool.eq_false_iff.mp h hv
    · exact h1 h
    · exact h3 h
  exact (if_pos ⟨hto, hs⟩).trans (if_neg hno)

/-- In SCAN and HDR a time-out starts no transmission. -/
theorem timeOut_notWriting {s0 : EngineState} (h0 : s0 = .scan ∨ s0 = .hdr) (idx0 : Fin 6) (c : CycleIn) {s : State}
    (hs : s.state ≠ .writing) : (timeOut s0 idx0 c s).state ≠ .writing := by
  unfold timeOut
  split
  · rcases timeoutStep_cases s0 idx0 c.rxValid s with ⟨-, -, e⟩ | ⟨hr, -⟩ | ⟨-, e⟩
    · rw [e]; nofun
    · rcases h0 with h0 | h0 <;> exact nomatch h0.symm.trans hr
    · rwa [e]
  · exact hs

theorem takeOffered_withPorts (d c : CycleIn) (o : PortOut) (s : State) :
    takeOffered d (withPorts c o s) = withPorts c o (takeOffered d s) := by
  simp only [takeOffered, withPorts_ite, plainByte_withPorts]

theorem timeOut_withPorts (s0 : EngineState) (idx0 : Fin 6) (d c : CycleIn) (o : PortOut) (s : State) :
    timeOut s0 idx0 d (withPorts c o s) = withPorts c o (timeOut s0 idx0 d s) := by
  simp only [timeOut, withPorts_state, withPorts_ite, timeoutStep_withPorts]

theorem timeOut_out (s0 : EngineState) (idx0 : Fin 6) (c : CycleIn) (s : State) :
    (timeOut s0 idx0 c s).out = s.out :=
  (congrArg State.out (timeOut_withPorts s0 idx0 c s.inp s.out s) :)

/-- Phase 3 of SCAN and HDR: the offered byte is taken, then the time-out acts, and nothing is sent. -/
theorem streamPhase_taking (idx0 : Fin 6) {s : State} (hs : s.state = .scan ∨ s.state = .hdr)
    (hrx : s.out.rxReady = true) (htx : s.out.tx = none) :
    streamPhase s.state idx0 s = .next (timeOut s.state idx0 s.inp (takeOffered s.inp s)) := by
  have hreceive : (if (s.inp.rxValid && s.out.rxReady) = true then receivePhase s else .next s) =
      .next (takeOffered s.inp s) := by
    rw [hrx, Bool.and_true, receivePhase_eq_plainByte hs, takeOffered, apply_ite Host.Outcome.next]
  obtain ⟨hinp, hout⟩ := takeOffered_ports s.inp s
  have htime : (if (takeOffered s.inp s).inp.rxTimeout = true ∧ (takeOffered s.inp s).state = s.state then
      timeoutStep s.state idx0 (s.inp.rxValid && s.out.rxReady) (takeOffered s.inp s) else takeOffered s.inp s) =
      timeOut s.state idx0 s.inp (takeOffered s.inp s) := by
    rw [hinp, hrx, Bool.and_true]
    rfl
  have hfail : ∀ t, writeFailStep s.state t = t := by
    intro t
    rcases writeFailStep_cases s.state t with ⟨-, hw, -⟩ | ⟨-, e⟩
    · rcases hs with hs | hs <;> exact nomatch hs.symm.trans hw
    · exact e
  simp only [streamPhase, ne_eq, not_true_eq_false, if_false, hreceive, andThen_next, htime, timeOut_out, hout, htx,
    Option.isSome_none, Bool.false_and, Bool.false_eq_true, hfail]

/-- The encoder draws in WRITING only (10_state.md R30). -/
theorem encoderPhase_of_notWriting {s : State} (h : s.state ≠ .writing) : encoderPhase s = s :=
  if_neg fun ⟨hw, _⟩ => h hw

/-- What the host access and the offered byte leave of s, but for the ports, in a cycle that takes the byte. -/
def taken (s : State) (c : CycleIn) (r : List CycleIn) : State :=
  takeOffered c (hostAccess s.state c (sampled s r))

/-- A cycle of SCAN or HDR in which `rx_ready` is 1: the host access, the offered byte, then the time-out. -/
theorem step_taking {s : State} {c : CycleIn} (r : List CycleIn) (hs : s.state = .scan ∨ s.state = .hdr)
    (hrx : rxReady s c = true) :
    step (s.fed (c :: r)) = .next (commit (withPorts c (outputs s c) (timeOut s.state s.hdrIdx c (taken s c r)))) := by
  obtain ⟨hrst, hup, hcancel⟩ := (rxReady_iff_of_listening hs).mp hrx
  have htx : (outputs s c).tx = none := by
    refine if_neg fun h => ?_
    obtain ⟨-, -, hw, -⟩ := txValid_iff.mp h
    rcases hs with hs | hs <;> exact nomatch hs.symm.trans hw
  have hhost : (hostAccess s.state c (sampled s r)).state = s.state := (hostAccess_sampled s.state c s r).1
  have hlistening := hhost.symm ▸ hs
  have hstream := streamPhase_taking s.hdrIdx
    (s := withPorts c (outputs s c) (hostAccess s.state c (sampled s r))) hlistening hrx htx
  rw [withPorts_inp, takeOffered_withPorts, timeOut_withPorts, withPorts_state, hhost] at hstream
  have hquiet : (withPorts c (outputs s c) (timeOut s.state s.hdrIdx c (taken s c r))).state ≠ .writing :=
    timeOut_notWriting hs _ _ (takeOffered_leaves c hlistening).2
  calc step (s.fed (c :: r))
      = andThen (busPhase s.state (linkPhase (beginCycle (s.fed (c :: r))))) fun s2 =>
          andThen (streamPhase s.state s.hdrIdx s2) fun s3 => .next (commit (encoderPhase s3)) :=
        if_neg (Bool.eq_false_iff.mp hrst)
    _ = .next (commit (encoderPhase (withPorts c (outputs s c) (timeOut s.state s.hdrIdx c (taken s c r))))) := by
        rw [linkPhase_up hup, beginCycle_fed_eq_withPorts, busPhase_eq_hostAccess (t := sampled s r) _ hs hcancel rfl,
          andThen_next, hstream, andThen_next, taken]
    _ = .next (commit (withPorts c (outputs s c) (timeOut s.state s.hdrIdx c (taken s c r)))) := by
        rw [encoderPhase_of_notWriting hquiet]

/-! ### The SCAN byte step -/

/-- In SCAN a cycle with the byte b and the same cycle without a byte differ by the byte step alone: the access is the
same, and the time-out does nothing. -/
theorem step_scan {s : State} {c : CycleIn} (r : List CycleIn) (b : Byte) (hs : s.state = .scan)
    (hc : undisturbed c = true) (hv : c.rxValid = false) :
    step (s.fed (c :: r)) = .next (commit (withPorts c (outputs s c) (hostAccess .scan c (sampled s r)))) ∧
    step (s.fed ({ c with rxValid := true, rxData := b } :: r)) =
      .next (commit (withPorts { c with rxValid := true, rxData := b } (outputs s c)
        (scanByte b (hostAccess .scan c (sampled s r))))) := by
  have hready : rxReady s c = true := rxReady_of_undisturbed (.inl hs) hc
  have hu : (hostAccess .scan c (sampled s r)).state = .scan := (hostAccess_sampled .scan c s r).1.trans hs
  constructor
  · rw [step_taking r (.inl hs) hready, taken, hs, timeOut_scan, takeOffered_of_idle hv]
  · rw [step_taking (c := { c with rxValid := true, rxData := b }) r (.inl hs) hready, taken, hs, timeOut_scan,
      takeOffered_of_valid rfl, ← plainByte_scan b hu]
    rfl

/-- Settles O12: the byte step of the scanner, after a host access that leaves SEEN_M0 and SCAN_COUNT alone. -/
theorem scanByteStep : Obligations.ScanByteStep := by
  unfold Obligations.ScanByteStep
  intro s c r b hs hc hv
  obtain ⟨hwithout, hwith⟩ := step_scan r b hs hc hv
  obtain ⟨-, hseen, hcount, -, -⟩ := hostAccess_sampled .scan c s r
  have hcases := scanByte_cases b (hostAccess .scan c (sampled s r))
  rw [hseen, hcount] at hcases
  refine ⟨_, hwithout, ?_⟩
  rw [hwith]
  rcases hcases with ⟨hm, hb, e⟩ | ⟨hno, e⟩ <;> rw [e]
  · exact ⟨fun _ _ => rfl, fun hno => absurd ⟨hm, hb⟩ hno⟩
  · exact ⟨fun hm hb => absurd ⟨hm, hb⟩ hno, fun _ => rfl⟩

/-! ### The time-out in HDR -/

/-- A resynchronization shows in IRQ_STATUS once the cycle commits, whatever else the cycle sets or clears
(60_exceptions.md R176). -/
theorem commit_resync (code : ErrCode) (s : State) :
    commit (enterError (.resync code) s) =
      { commit s with
        errCode := code, resyncCount := s.resyncCount + 1, irqStatus := (commit s).irqStatus ||| 0x08, seenM0 := false,
        hdrIdx := 0, state := .scan } := by
  simp only [enterError_resync, commit, committedIrq, BitVec.or_assoc]

/-- While a read unit is open, no byte completes the header. -/
theorem taken_of_unitOpen {s : State} {c : CycleIn} (r : List CycleIn) (hs : s.state = .hdr)
    (hopen : c.rxValid = false ∨ s.hdrIdx = 1 ∨ s.hdrIdx = 3) :
    (taken s c r).state = .hdr ∧
      (taken s c r).hdrRaw = if c.rxValid = true then s.hdrRaw.set s.hdrIdx c.rxData else s.hdrRaw := by
  obtain ⟨hstate, -, -, hidx, hraw⟩ := hostAccess_sampled s.state c s r
  unfold taken
  cases hv : c.rxValid with
  | false =>
    rw [takeOffered_of_idle hv]
    exact ⟨hstate.trans hs, hraw⟩
  | true =>
    have h5 : s.hdrIdx ≠ 5 := by
      rcases hopen with h | h | h
      · exact nomatch h.symm.trans hv
      · rw [h]; decide
      · rw [h]; decide
    rw [takeOffered_of_valid hv, plainByte_hdr _ (hstate.trans hs), hdrByte_field _ _ (by rwa [hidx])]
    exact ⟨hstate.trans hs, by rw [hraw, hidx]; rfl⟩

/-- In HDR a cycle with a time-out and the same cycle without it differ by phase 3b alone. -/
theorem step_hdr {s : State} {c : CycleIn} (r : List CycleIn) (hs : s.state = .hdr) (hc : linked c = true)
    (hto : c.rxTimeout = false) :
    step (s.fed (c :: r)) = .next (commit (withPorts c (outputs s c) (taken s c r))) ∧
    step (s.fed ({ c with rxTimeout := true } :: r)) =
      .next (commit (withPorts { c with rxTimeout := true } (outputs s c)
        (timeOut .hdr s.hdrIdx { c with rxTimeout := true } (taken s c r)))) := by
  have hready : rxReady s c = true := rxReady_of_linked hs hc
  constructor
  · rw [step_taking r (.inr hs) hready, timeOut_of_none hto]
  · rw [step_taking (c := { c with rxTimeout := true }) r (.inr hs) hready, hs]
    rfl

/-- Settles O17: by the read unit, the time-out is a resynchronization or nothing. -/
theorem headerTimeout : Obligations.HeaderTimeout := by
  unfold Obligations.HeaderTimeout
  intro s c r hs hc hto
  obtain ⟨hwithout, hwith⟩ := step_hdr r hs hc hto
  refine ⟨_, hwithout, fun hopen => ?_, fun hv h1 h3 => ?_⟩
  · obtain ⟨hstate, hraw⟩ := taken_of_unitOpen r hs hopen
    refine ⟨hstate, hraw, ?_⟩
    rw [hwith, timeOut_hdr_of_unitOpen (c := { c with rxTimeout := true }) rfl hopen hstate, ← enterError_withPorts,
      commit_resync]
    rfl
  · rw [hwith, timeOut_hdr_of_unitDone (c := { c with rxTimeout := true }) hv h1 h3]
    rfl

/-! ### The completed header -/

theorem exec_hdr_elsewhere {s : State} (h : ¬(s.state = .hdr ∧ s.hdrIdx = 5)) (dir : Byte) (height width : Half)
    (fmt : Byte) : exec (.hdr dir height width fmt) s = .next s := if_neg h

theorem exec_hdr_last {s : State} (hs : s.state = .hdr) (h5 : s.hdrIdx = 5) (dir : Byte) (height width : Half)
    (fmt : Byte) :
    exec (.hdr dir height width fmt) s =
      .next (headerComplete dir height width fmt
        { s with hdrRaw := headerBytes dir height width fmt, hdrIdx := 0 }) := if_pos ⟨hs, h5⟩

section
variable {dir : Byte} {height width : Half} {fmt : Byte}

/-! The checks of 40_frame_scanner.md R105 in wire order. -/

theorem headerComplete_badDirection (hdir : dir ≠ 1 ∧ dir ≠ 2) (s : State) :
    headerComplete dir height width fmt s = enterError (.resync .unknownDirection) s := by
  rw [headerComplete, if_pos hdir]

theorem headerComplete_zeroDimension (hdir : dir = 1 ∨ dir = 2) (hzero : height = 0 ∨ width = 0) (s : State) :
    headerComplete dir height width fmt s = enterError (.resync .zeroDimension) s := by
  rw [headerComplete, if_neg (by tauto), if_pos hzero]

theorem headerComplete_badFormat (hdir : dir = 1 ∨ dir = 2) (hdims : height ≠ 0 ∧ width ≠ 0)
    (hfmt : fmt ≠ 1 ∧ fmt ≠ 2 ∧ fmt ≠ 3) (s : State) :
    headerComplete dir height width fmt s = enterError (.resync .unknownFormat) s := by
  rw [headerComplete, if_neg (by tauto), if_neg (by tauto), if_pos hfmt]

/-- The size guard of a valid header (40_frame_scanner.md R111 to R113). -/
theorem headerComplete_valid (hdir : dir = 1 ∨ dir = 2) (hdims : height ≠ 0 ∧ width ≠ 0)
    (hfmt : fmt = 1 ∨ fmt = 2 ∨ fmt = 3) (s : State) :
    headerComplete dir height width fmt s =
      let t := { s with reqDir := dir.setWidth 2, reqH := height, reqW := width, reqFmt := fmt.setWidth 2 }
      if payloadBytes height width (fmt.setWidth 2) > 4294967295 then sizeOverflow t
      else acceptHeader (payloadBytes height width (fmt.setWidth 2)) t := by
  rw [headerComplete, if_neg (by tauto), if_neg (by tauto), if_neg (by tauto)]

end

/-- Settles O14: HDR in its place is the completed header, whose outcome its first bad field decides, then its size. -/
theorem hdrResult : Obligations.HdrResult := by
  unfold Obligations.HdrResult
  intro s dir height width fmt
  refine ⟨fun h => exec_hdr_elsewhere h dir height width fmt, fun hs h5 hdir => ?_, fun hs h5 hdir hzero => ?_,
    fun hs h5 hdir hdims hfmt => ?_, fun hs h5 hdir hdims hfmt hbig => ?_, fun hs h5 hdir hdims hfmt hfits => ?_⟩ <;>
    rw [exec_hdr_last hs h5]
  · rw [headerComplete_badDirection hdir]; rfl
  · rw [headerComplete_zeroDimension hdir hzero]; rfl
  · rw [headerComplete_badFormat hdir hdims hfmt]; rfl
  · rw [headerComplete_valid hdir hdims hfmt]
    exact congrArg _ (if_pos hbig)
  · rw [headerComplete_valid hdir hdims hfmt]
    exact congrArg _ (if_neg (Nat.not_lt.mpr hfits))

end Sys2Proof.Proofs

namespace Sys2Proof.Proofs

open Sys2Proof.Machine Sys2Proof.Laws

/-! ### A cycle of READING

READING rejects every command, so a cycle of it is the host access, the READING byte step of the offered byte, then the
time-out. -/

/-- In READING every cycle with the link up takes the offered byte (10_state.md R19). -/
theorem rxReady_of_reading {s : State} {c : CycleIn} (hs : s.state = .reading) (hc : linked c = true) :
    rxReady s c = true := by
  simp only [linked, Bool.and_eq_true, Bool.not_eq_true'] at hc
  obtain ⟨hup, hrst⟩ := hc
  simp [rxReady, cancelNow, hup, hrst, hs]

/-- Phase 2 of READING. -/
theorem busPhase_reading {t : State} (c : CycleIn) (o : PortOut) (ht : t.state = .reading) :
    busPhase .reading (withPorts c o t) = .next (withPorts c o (hostAccess .reading c t)) := by
  have hreject := commandWrite_busy c.busWdata (s := withPorts c o t) (.inr (.inl ht))
  unfold busPhase hostAccess
  simp only [withPorts_inp, hreject, dataWrite_withPorts, withPorts_ite, apply_ite Host.Outcome.next]
  rfl

/-- The host access leaves the transfer and the destination alone. -/
theorem hostAccess_sampled_transfer (s0 : EngineState) (c : CycleIn) (s : State) (r : List CycleIn) :
    let u := hostAccess s0 c (sampled s r)
    u.inputs = r ∧ u.reqFmt = s.reqFmt ∧ u.xferCount = s.xferCount ∧ u.dstBuf = s.dstBuf ∧ u.dstH = s.dstH ∧
      u.dstW = s.dstW ∧ u.dstC = s.dstC := by
  obtain ⟨_, _, _, _, _, _, _, e⟩ := hostAccess_hostWrote s0 c (sampled s r)
  intro u
  rw [show u = _ from e]
  exact ⟨rfl, rfl, rfl, rfl, rfl, rfl, rfl⟩

/-- The READING byte step of the format in REQ_FMT (41_codec_decode.md R116 to R118). -/
def payloadByte (b : Byte) (s : State) : State :=
  if s.reqFmt = 2 then readPackedByte b s else readPlainByte b s

theorem payloadByte_plain (b : Byte) {s : State} (h : s.reqFmt = 1 ∨ s.reqFmt = 3) :
    payloadByte b s = readPlainByte b s := by
  rcases h with h | h <;> exact if_neg (by rw [h]; decide)

theorem payloadByte_packed (b : Byte) {s : State} (h : s.reqFmt = 2) : payloadByte b s = readPackedByte b s := if_pos h

/-- Phase 3a of READING. A Request holds no format 0 (10_state.md R27). -/
theorem receivePhase_reading {s : State} (hs : s.state = .reading) (hf : s.reqFmt ≠ 0) :
    receivePhase s = .next (payloadByte s.inp.rxData s) := by
  rw [receivePhase_eq]
  rcases format_cases s.reqFmt with h | h | h | h
  · exact absurd h hf
  · rw [payloadByte_plain _ (.inl h)]; simp [hs, h]
  · rw [payloadByte_packed _ h]; simp [hs, h]
  · rw [payloadByte_plain _ (.inr h)]; simp [hs, h]

/-- Whatever the format, a payload byte may change DST_BUF and PEND, and the transfer advances. -/
theorem payloadByte_advances (b : Byte) (s : State) :
    ∃ m held, payloadByte b s = decodeAdvance { s with dstBuf := m, pend := held } := by
  unfold payloadByte
  split
  · rcases readPackedByte_cases b s with ⟨-, e⟩ | ⟨-, e⟩
    · exact ⟨s.dstBuf, b, e⟩
    · exact ⟨_, s.pend, e⟩
  · exact ⟨_, s.pend, rfl⟩

theorem payloadByte_withPorts (c : CycleIn) (o : PortOut) (s : State) (b : Byte) :
    payloadByte b (withPorts c o s) = withPorts c o (payloadByte b s) := by
  simp only [payloadByte, withPorts_reqFmt, withPorts_ite, readPackedByte_withPorts, readPlainByte_withPorts]

/-- What a cycle of READING makes of the byte port: the byte step if a byte is offered. -/
def takePayload (c : CycleIn) (s : State) : State := if c.rxValid = true then payloadByte c.rxData s else s

theorem takePayload_of_valid {c : CycleIn} (h : c.rxValid = true) (s : State) :
    takePayload c s = payloadByte c.rxData s := if_pos h

theorem takePayload_of_idle {c : CycleIn} (h : c.rxValid = false) (s : State) : takePayload c s = s :=
  if_neg (Bool.eq_false_iff.mp h)

theorem takePayload_withPorts (d c : CycleIn) (o : PortOut) (s : State) :
    takePayload d (withPorts c o s) = withPorts c o (takePayload d s) := by
  simp only [takePayload, withPorts_ite, payloadByte_withPorts]

theorem takePayload_ports (c : CycleIn) (s : State) :
    (takePayload c s).inp = s.inp ∧ (takePayload c s).out = s.out :=
  have h := takePayload_withPorts c s.inp s.out s
  ⟨(congrArg State.inp h :), (congrArg State.out h :)⟩

/-- A cycle of READING counts the byte it takes. It either stays in READING and keeps the destination tag, or completes
the decode. -/
theorem takePayload_effect (c : CycleIn) {s : State} (hs : s.state = .reading) :
    let t := takePayload c s
    t.xferCount = s.xferCount + (if c.rxValid = true then 1 else 0) ∧ t.inputs = s.inputs ∧
      (t.state = .reading ∧ t.dstH = s.dstH ∧ t.dstW = s.dstW ∧ t.dstC = s.dstC ∨ t.state = .idle) := by
  cases hv : c.rxValid with
  | false =>
    rw [takePayload_of_idle hv]
    exact ⟨(BitVec.add_zero _).symm, rfl, .inl ⟨hs, rfl, rfl, rfl⟩⟩
  | true =>
    obtain ⟨m, held, e⟩ := payloadByte_advances c.rxData s
    rw [takePayload_of_valid hv, e]
    rcases decodeAdvance_cases { s with dstBuf := m, pend := held } with ⟨-, e⟩ | ⟨-, e⟩ <;> rw [e]
    · exact ⟨rfl, rfl, .inr rfl⟩
    · exact ⟨rfl, rfl, .inl ⟨hs, rfl, rfl, rfl⟩⟩

/-! The time-out of READING (41_codec_decode.md R122). -/

theorem timeOut_reading_of_open (idx0 : Fin 6) {c : CycleIn} {s : State} (hto : c.rxTimeout = true)
    (hs : s.state = .reading) : timeOut .reading idx0 c s = enterError (.cycleFail .shortRead) s :=
  if_pos ⟨hto, hs⟩

/-- The byte that completed the decode voids the time-out. -/
theorem timeOut_reading_of_done (idx0 : Fin 6) (c : CycleIn) {s : State} (hs : s.state ≠ .reading) :
    timeOut .reading idx0 c s = s :=
  if_neg fun ⟨_, h⟩ => hs h

/-- Neither a byte nor a time-out leads from READING to WRITING. -/
theorem timeOut_takePayload_notWriting (idx0 : Fin 6) (c : CycleIn) {s : State} (hs : s.state = .reading) :
    (timeOut .reading idx0 c (takePayload c s)).state ≠ .writing := by
  obtain ⟨-, -, htake⟩ := takePayload_effect c hs
  unfold timeOut
  split
  · nofun
  · rcases htake with ⟨h, -⟩ | h <;> rw [h] <;> nofun

/-- Phase 3 of READING: the offered byte is taken, then the time-out acts, and nothing is sent. -/
theorem streamPhase_reading (idx0 : Fin 6) {s : State} (hs : s.state = .reading) (hf : s.reqFmt ≠ 0)
    (hrx : s.out.rxReady = true) (htx : s.out.tx = none) :
    streamPhase .reading idx0 s = .next (timeOut .reading idx0 s.inp (takePayload s.inp s)) := by
  have hreceive : (if (s.inp.rxValid && s.out.rxReady) = true then receivePhase s else .next s) =
      .next (takePayload s.inp s) := by
    rw [hrx, Bool.and_true, receivePhase_reading hs hf, takePayload, apply_ite Host.Outcome.next]
  obtain ⟨hinp, hout⟩ := takePayload_ports s.inp s
  have htime : (if (takePayload s.inp s).inp.rxTimeout = true ∧ (takePayload s.inp s).state = .reading then
      timeoutStep .reading idx0 (s.inp.rxValid && s.out.rxReady) (takePayload s.inp s) else takePayload s.inp s) =
      timeOut .reading idx0 s.inp (takePayload s.inp s) := by
    rw [hinp, hrx, Bool.and_true]
    rfl
  have hfail : ∀ t, writeFailStep .reading t = t := fun t => if_neg fun ⟨_, h, _⟩ => nomatch h
  simp only [streamPhase, hs, ne_eq, not_true_eq_false, if_false, hreceive, andThen_next, htime, timeOut_out, hout, htx,
    Option.isSome_none, Bool.false_and, Bool.false_eq_true, hfail]

/-- What the host access and the offered byte leave of s, but for the ports, in a cycle of READING. -/
def received (s : State) (c : CycleIn) (r : List CycleIn) : State :=
  takePayload c (hostAccess .reading c (sampled s r))

/-- A cycle of READING. -/
theorem step_reading {s : State} {c : CycleIn} (r : List CycleIn) (hs : s.state = .reading) (hf : s.reqFmt ≠ 0)
    (hc : linked c = true) :
    step (s.fed (c :: r)) =
      .next (commit (withPorts c (outputs s c) (timeOut .reading s.hdrIdx c (received s c r)))) := by
  have hrx := rxReady_of_reading hs hc
  simp only [linked, Bool.and_eq_true, Bool.not_eq_true'] at hc
  obtain ⟨hup, hrst⟩ := hc
  have htx : (outputs s c).tx = none := by
    refine if_neg fun h => ?_
    obtain ⟨-, -, hw, -⟩ := txValid_iff.mp h
    exact nomatch hs.symm.trans hw
  have hhost : (hostAccess .reading c (sampled s r)).state = .reading := (hostAccess_sampled _ c s r).1.trans hs
  obtain ⟨-, hfmt, -⟩ := hostAccess_sampled_transfer .reading c s r
  have hstream := streamPhase_reading s.hdrIdx
    (s := withPorts c (outputs s c) (hostAccess .reading c (sampled s r))) hhost
    (by rwa [withPorts_reqFmt, hfmt]) hrx htx
  rw [withPorts_inp, takePayload_withPorts, timeOut_withPorts] at hstream
  have hquiet : (withPorts c (outputs s c) (timeOut .reading s.hdrIdx c (received s c r))).state ≠ .writing :=
    timeOut_takePayload_notWriting _ c hhost
  calc step (s.fed (c :: r))
      = andThen (busPhase s.state (linkPhase (beginCycle (s.fed (c :: r))))) fun s2 =>
          andThen (streamPhase s.state s.hdrIdx s2) fun s3 => .next (commit (encoderPhase s3)) :=
        if_neg (Bool.eq_false_iff.mp hrst)
    _ = .next (commit (encoderPhase (withPorts c (outputs s c) (timeOut .reading s.hdrIdx c (received s c r))))) := by
        rw [linkPhase_up hup, beginCycle_fed_eq_withPorts, hs, busPhase_reading (t := sampled s r) _ _ hs, andThen_next,
          hstream, andThen_next, received]
    _ = .next (commit (withPorts c (outputs s c) (timeOut .reading s.hdrIdx c (received s c r)))) := by
        rw [encoderPhase_of_notWriting hquiet]

/-- What the taken byte leaves of the coming inputs, the count, DST_BUF and the destination tag. -/
theorem received_effect {s : State} (c : CycleIn) (r : List CycleIn) (hs : s.state = .reading) :
    (received s c r).inputs = r ∧
      (received s c r).xferCount = s.xferCount + (if c.rxValid = true then 1 else 0) ∧
      (c.rxValid = false → (received s c r).dstBuf = s.dstBuf) ∧
      ((received s c r).state = .reading →
        (received s c r).dstH = s.dstH ∧ (received s c r).dstW = s.dstW ∧ (received s c r).dstC = s.dstC) := by
  have hhost : (hostAccess .reading c (sampled s r)).state = .reading := (hostAccess_sampled _ c s r).1.trans hs
  obtain ⟨hinputs, -, hcount, hdst, hh, hw, hch⟩ := hostAccess_sampled_transfer .reading c s r
  obtain ⟨htaken, hleft, htag⟩ := takePayload_effect c hhost
  refine ⟨hleft.trans hinputs, htaken.trans (by rw [hcount]), fun hv => ?_, fun hopen => ?_⟩
  · rw [received, takePayload_of_idle hv, hdst]
  · rcases htag with ⟨-, hh', hw', hch'⟩ | hidle
    · exact ⟨hh'.trans hh, hw'.trans hw, hch'.trans hch⟩
    · exact nomatch hopen.symm.trans hidle

/-! ### A complete decode of wire bytes in order -/

/-- In READING of a Grayscale or RGB888 Request, exactly the bytes bs are still to come. -/
structure AwaitsPlain (bs : List Byte) (s : State) : Prop where
  reading : s.state = .reading
  plain : s.reqFmt = 1 ∨ s.reqFmt = 3
  count : s.xferCount.toNat + bs.length = s.payloadSize.toNat

/-- t is what the decode begun in s leaves once the bytes bs have come: they are stored from XFER_COUNT on, and the
buffer is tagged (41_codec_decode.md R121). -/
def LeavesPayload (bs : List Byte) (s t : State) : Prop :=
  t.state = .idle ∧ t.dstH = s.reqH ∧ t.dstW = s.reqW ∧ t.dstC = BitVec.ofNat 2 (nch s.reqFmt) ∧
    t.dstBuf = storeBytes s.bufBytes s.dstBuf s.xferCount.toNat bs

theorem AwaitsPlain.reqFmt_ne_zero {bs : List Byte} {s : State} (h : AwaitsPlain bs s) : s.reqFmt ≠ 0 := by
  rcases h.plain with h | h <;> rw [h] <;> decide

/-- With a byte to come the count does not wrap around. -/
theorem AwaitsPlain.count_succ {b : Byte} {bs : List Byte} {s : State} (h : AwaitsPlain (b :: bs) s) :
    (s.xferCount + 1).toNat = s.xferCount.toNat + 1 := by
  have hcount := h.count
  rw [List.length_cons] at hcount
  bv_omega

/-- Neither the begin of a cycle nor the host takes a payload byte. -/
theorem AwaitsPlain.accessed {bs : List Byte} {s : State} (h : AwaitsPlain bs s) (c : CycleIn) (r : List CycleIn) :
    AwaitsPlain bs (hostAccess .reading c (sampled s r)) ∧
      ∀ t, LeavesPayload bs (hostAccess .reading c (sampled s r)) t → LeavesPayload bs s t := by
  obtain ⟨_, _, _, _, _, _, _, e⟩ := hostAccess_hostWrote .reading c (sampled s r)
  rw [e]
  exact ⟨⟨h.reading, h.plain, h.count⟩, fun _ ht => ht⟩

/-- A byte before the last is stored in its place, and the decode goes on after it. -/
theorem AwaitsPlain.byte {b : Byte} {bs : List Byte} {s : State} (h : AwaitsPlain (b :: bs) s) (hbs : bs ≠ []) :
    AwaitsPlain bs (payloadByte b s) ∧
      ∀ t, LeavesPayload bs (payloadByte b s) t → LeavesPayload (b :: bs) s t := by
  have hcount := h.count
  have hsucc := h.count_succ
  have hlen := List.length_pos_iff.mpr hbs
  rw [List.length_cons] at hcount
  rw [payloadByte_plain b h.plain, readPlainByte]
  rcases decodeAdvance_cases { s with dstBuf := storeBytes s.bufBytes s.dstBuf s.xferCount.toNat [b] } with
    ⟨hlast, -⟩ | ⟨-, e⟩
  · have hlast : s.xferCount.toNat + 1 = s.payloadSize.toNat := hsucc.symm.trans (congrArg BitVec.toNat hlast)
    omega
  · rw [e]
    refine ⟨⟨h.reading, h.plain, ?_⟩, fun t ⟨hidle, hh, hw, hc, hm⟩ => ⟨hidle, hh, hw, hc, ?_⟩⟩
    · change (s.xferCount + 1).toNat + bs.length = s.payloadSize.toNat
      omega
    · change _ = storeBytes _ _ (s.xferCount + 1).toNat _ at hm
      rw [hm, hsucc]
      rfl

/-- The last byte completes the decode. -/
theorem AwaitsPlain.lastByte {b : Byte} {s : State} (h : AwaitsPlain [b] s) :
    LeavesPayload [b] s (payloadByte b s) := by
  rw [payloadByte_plain b h.plain, readPlainByte]
  rcases decodeAdvance_cases { s with dstBuf := storeBytes s.bufBytes s.dstBuf s.xferCount.toNat [b] } with
    ⟨-, e⟩ | ⟨hmore, -⟩
  · rw [e]
    exact ⟨rfl, rfl, rfl, rfl, rfl⟩
  · exact absurd (BitVec.eq_of_toNat_eq (h.count_succ.trans h.count)) hmore

/-- A cycle that is not the last takes the byte it offers, if it offers one, and the bytes after it stay to come. -/
theorem AwaitsPlain.cycle {c : CycleIn} {r : List CycleIn} {s : State} (h : AwaitsPlain (offeredBytes (c :: r)) s)
    (hr : offeredBytes r ≠ []) :
    AwaitsPlain (offeredBytes r) (received s c r) ∧
      ∀ t, LeavesPayload (offeredBytes r) (received s c r) t → LeavesPayload (offeredBytes (c :: r)) s t := by
  obtain ⟨hawaits, hleaves⟩ := h.accessed c r
  unfold received
  cases hv : c.rxValid with
  | true =>
    rw [offeredBytes_of_valid hv] at hawaits hleaves ⊢
    rw [takePayload_of_valid hv]
    obtain ⟨hnext, hbyte⟩ := hawaits.byte hr
    exact ⟨hnext, fun t ht => hleaves t (hbyte t ht)⟩
  | false =>
    rw [offeredBytes_of_idle hv] at hawaits hleaves ⊢
    rw [takePayload_of_idle hv]
    exact ⟨hawaits, hleaves⟩

/-- The last cycle completes the decode. -/
theorem AwaitsPlain.lastCycle {c : CycleIn} {s : State} (h : AwaitsPlain (offeredBytes [c]) s) (hv : c.rxValid = true) :
    LeavesPayload (offeredBytes [c]) s (received s c []) := by
  obtain ⟨hawaits, hleaves⟩ := h.accessed c []
  rw [offeredBytes_of_valid hv] at hawaits hleaves ⊢
  rw [received, takePayload_of_valid hv]
  exact hleaves _ hawaits.lastByte

theorem fed_of_inputs {s : State} {r : List CycleIn} (h : s.inputs = r) : s.fed r = s := h ▸ fed_self s

/-- From wherever in the payload the decode is, cycles that offer the rest of it complete it. -/
theorem runCycles_leavesPayload (cs : List CycleIn) :
    ∀ s : State, AwaitsPlain (offeredBytes cs) s → endsOffering cs = true → (∀ c ∈ cs, linked c = true) →
      (∀ c ∈ cs.dropLast, c.rxTimeout = false) →
      ∃ t, runCycles cs.length (s.fed cs) = .next t ∧ LeavesPayload (offeredBytes cs) s t := by
  induction cs with
  | nil => exact fun _ _ hend => nomatch hend
  | cons c r ih =>
    intro s hs hend hlinked hquiet
    have hstep := step_reading r hs.reading hs.reqFmt_ne_zero (hlinked c List.mem_cons_self)
    rw [List.length_cons, runCycles_succ, hstep, andThen_next]
    cases r with
    | nil =>
      have hdone := hs.lastCycle ((endsOffering_singleton c).symm.trans hend)
      have hidle : (received s c []).state = .idle := hdone.1
      rw [timeOut_reading_of_done _ c (by rw [hidle]; nofun)]
      exact ⟨_, rfl, hdone⟩
    | cons d r =>
      rw [timeOut_of_none (hquiet c List.mem_cons_self)]
      obtain ⟨hnext, hleaves⟩ := hs.cycle (offeredBytes_ne_nil hend)
      obtain ⟨t, hrun, ht⟩ := ih (commit (withPorts c (outputs s c) (received s c (d :: r))))
        ⟨hnext.reading, hnext.plain, hnext.count⟩ hend (fun e he => hlinked e (List.mem_cons_of_mem c he))
        (fun e he => hquiet e (List.mem_cons_of_mem c he))
      have hinputs : (commit (withPorts c (outputs s c) (received s c (d :: r)))).inputs = d :: r :=
        (received_effect c (d :: r) hs.reading).1
      rw [fed_of_inputs hinputs] at hrun
      exact ⟨t, hrun, hleaves t ht⟩

/-- A Grayscale or RGB888 payload is as long as its decoded buffer. -/
theorem decodedBytes_plain (h w : Half) {fmt : BitVec 2} (hf : fmt = 1 ∨ fmt = 3) :
    decodedBytes h w fmt = payloadBytes h w fmt := by
  rcases hf with rfl | rfl <;> rfl

/-- The channel count fits DST_C. -/
theorem nch_toNat (fmt : BitVec 2) : (BitVec.ofNat 2 (nch fmt)).toNat = nch fmt := by
  rcases format_cases fmt with rfl | rfl | rfl | rfl <;> rfl

/-- Settles O22: by induction over the cycles, what is left of the payload is stored from XFER_COUNT on, and all of it
lies in the buffer. -/
theorem plainDecodeIsIdentity : Obligations.PlainDecodeIsIdentity := by
  unfold Obligations.PlainDecodeIsIdentity
  intro s cs hinv hs hplain hcount hlinked hquiet hlength hend
  obtain ⟨-, hsized, hfits⟩ := readingBounds_of_invariant hinv hs
  rw [decodedBytes_plain _ _ hplain, ← hsized] at hfits
  have hzero : s.xferCount.toNat = 0 := congrArg BitVec.toNat hcount
  have hawaits : AwaitsPlain (offeredBytes cs) s := ⟨hs, hplain, by rw [hzero, hlength, Nat.zero_add]⟩
  obtain ⟨t, hrun, hidle, hh, hw, hch, hmem⟩ := runCycles_leavesPayload cs s hawaits hend hlinked hquiet
  refine ⟨t, hrun, hidle, hh, hw, by rw [hch, nch_toNat], fun k => ?_⟩
  rw [hmem, hzero, read_storeBytes, hlength, Nat.sub_zero]
  exact if_congr (by omega) rfl rfl

/-! ### The time-out in READING -/

/-- A failed cycle shows in IRQ_STATUS once the cycle commits, whatever else the cycle sets or clears
(60_exceptions.md R176). -/
theorem commit_cycleFail (code : ErrCode) (s : State) :
    commit (enterError (.cycleFail code) s) =
      { commit s with
        errCode := code, irqStatus := (commit s).irqStatus ||| 0x04, reqValid := false, encRdy := false,
        state := .idle } := by
  simp only [enterError_cycleFail, commit, committedIrq, BitVec.or_assoc]

/-- In READING a cycle with a time-out and the same cycle without it differ by phase 3b alone. -/
theorem step_reading_timeout {s : State} {c : CycleIn} (r : List CycleIn) (hs : s.state = .reading) (hf : s.reqFmt ≠ 0)
    (hc : linked c = true) (hto : c.rxTimeout = false) :
    step (s.fed (c :: r)) = .next (commit (withPorts c (outputs s c) (received s c r))) ∧
    step (s.fed ({ c with rxTimeout := true } :: r)) =
      .next (commit (withPorts { c with rxTimeout := true } (outputs s c)
        (timeOut .reading s.hdrIdx { c with rxTimeout := true } (received s c r)))) := by
  constructor
  · rw [step_reading r hs hf hc, timeOut_of_none hto]
  · exact step_reading (c := { c with rxTimeout := true }) r hs hf hc

/-- Settles O24: by whether the decode completed, the time-out is nothing or fails the cycle. -/
theorem readTimeout : Obligations.ReadTimeout := by
  unfold Obligations.ReadTimeout
  intro s c r hs hf hc hto
  obtain ⟨hwithout, hwith⟩ := step_reading_timeout r hs hf hc hto
  obtain ⟨-, hcount, hidle, htag⟩ := received_effect c r hs
  refine ⟨_, hwithout, hcount, hidle, fun hdone => ?_, fun hopen => ⟨?_, htag hopen⟩⟩
  · rw [hwith, timeOut_reading_of_done (s := received s c r) _ _ hdone]
    rfl
  · rw [hwith, timeOut_reading_of_open (s := received s c r) _ rfl hopen, ← enterError_withPorts,
      commit_cycleFail]
    rfl

end Sys2Proof.Proofs

namespace Sys2Proof.Proofs

open Sys2Proof.Machine Sys2Proof.Laws

/-! ### RGB565 widening and packing as numbers

Both join fields that do not overlap, so as numbers they are sums. -/

/-- A field shifted to the top of a byte, with its own top bits below. -/
theorem widening_toNat {n i k : Nat} (v : BitVec n) (hfits : v.toNat * 2 ^ i < 256) (hlow : v.toNat / 2 ^ k < 2 ^ i) :
    ((v.setWidth 8 <<< i) ||| (v.setWidth 8 >>> k)).toNat = v.toNat * 2 ^ i + v.toNat / 2 ^ k := by
  have hv : v.toNat < 256 := (Nat.le_mul_of_pos_right _ (Nat.two_pow_pos i)).trans_lt hfits
  have hjoin := Nat.shiftLeft_add_eq_or_of_lt hlow v.toNat
  rw [Nat.shiftLeft_eq] at hjoin
  simp only [BitVec.toNat_or, BitVec.toNat_shiftLeft, BitVec.toNat_ushiftRight, BitVec.toNat_setWidth,
    Nat.shiftRight_eq_div_pow, Nat.shiftLeft_eq, Nat.reducePow]
  rw [Nat.mod_eq_of_lt hv, Nat.mod_eq_of_lt hfits, hjoin]

/-- expand5 (41_codec_decode.md R120). -/
theorem expand5_toNat (v : BitVec 5) : (expand5 v).toNat = 8 * v.toNat + v.toNat / 4 := by
  have hv : v.toNat < 32 := v.isLt
  have hwide := widening_toNat (i := 3) (k := 2) v (by omega) (by omega)
  rw [expand5, hwide]
  omega

/-- expand6 (41_codec_decode.md R120). -/
theorem expand6_toNat (v : BitVec 6) : (expand6 v).toNat = 4 * v.toNat + v.toNat / 16 := by
  have hv : v.toNat < 64 := v.isLt
  have hwide := widening_toNat (i := 2) (k := 4) v (by omega) (by omega)
  rw [expand6, hwide]
  omega

/-- Pack565 (42_codec_encode.md R134). -/
theorem pack565_toNat (r g b : Byte) :
    (pack565 r g b).toNat = r.toNat / 8 * 2048 + g.toNat / 4 * 32 + b.toNat / 8 := by
  have hr : r.toNat < 256 := r.isLt
  have hg : g.toNat < 256 := g.isLt
  have hb : b.toNat < 256 := b.isLt
  have hgreen : g.toNat / 4 * 32 < 2 ^ 11 := by omega
  have hblue : b.toNat / 8 < 2 ^ 5 := by omega
  have hjoin : r.toNat / 8 * 2048 + g.toNat / 4 * 32 = r.toNat / 8 * 2048 ||| g.toNat / 4 * 32 := by
    simpa only [Nat.shiftLeft_eq] using Nat.shiftLeft_add_eq_or_of_lt hgreen (r.toNat / 8)
  have hjoin' : (r.toNat / 8 * 64 + g.toNat / 4) * 32 + b.toNat / 8 =
      (r.toNat / 8 * 64 + g.toNat / 4) * 32 ||| b.toNat / 8 := by
    simpa only [Nat.shiftLeft_eq] using Nat.shiftLeft_add_eq_or_of_lt hblue (r.toNat / 8 * 64 + g.toNat / 4)
  have hregroup : (r.toNat / 8 * 64 + g.toNat / 4) * 32 = r.toNat / 8 * 2048 + g.toNat / 4 * 32 := by omega
  simp only [pack565, BitVec.toNat_or, BitVec.toNat_shiftLeft, BitVec.toNat_ushiftRight, BitVec.toNat_setWidth,
    Nat.shiftRight_eq_div_pow, Nat.shiftLeft_eq, Nat.reducePow]
  rw [Nat.mod_eq_of_lt (by omega : r.toNat < 65536), Nat.mod_eq_of_lt (by omega : g.toNat < 65536),
    Nat.mod_eq_of_lt (by omega : b.toNat < 65536), Nat.mod_eq_of_lt (by omega : r.toNat / 8 * 2048 < 65536),
    Nat.mod_eq_of_lt (by omega : g.toNat / 4 * 32 < 65536), ← hjoin, ← hregroup, ← hjoin']

/-! The widening truncates back to the field, and keeps the order. -/

theorem expand5_toNat_div (v : BitVec 5) : (expand5 v).toNat / 8 = v.toNat := by
  have hv : v.toNat < 32 := v.isLt
  rw [expand5_toNat]
  omega

theorem expand5_truncates (v : BitVec 5) : (expand5 v >>> 3).setWidth 5 = v := by
  apply BitVec.eq_of_toNat_eq
  rw [BitVec.toNat_setWidth, BitVec.toNat_ushiftRight, Nat.shiftRight_eq_div_pow]
  exact (congrArg (· % 32) (expand5_toNat_div v)).trans (Nat.mod_eq_of_lt v.isLt)

theorem expand6_toNat_div (v : BitVec 6) : (expand6 v).toNat / 4 = v.toNat := by
  have hv : v.toNat < 64 := v.isLt
  rw [expand6_toNat]
  omega

theorem expand6_truncates (v : BitVec 6) : (expand6 v >>> 2).setWidth 6 = v := by
  apply BitVec.eq_of_toNat_eq
  rw [BitVec.toNat_setWidth, BitVec.toNat_ushiftRight, Nat.shiftRight_eq_div_pow]
  exact (congrArg (· % 64) (expand6_toNat_div v)).trans (Nat.mod_eq_of_lt v.isLt)

theorem expand5_strictMono {v w : BitVec 5} (h : v < w) : expand5 v < expand5 w := by
  rw [BitVec.lt_def] at h ⊢
  rw [expand5_toNat, expand5_toNat]
  omega

theorem expand6_strictMono {v w : BitVec 6} (h : v < w) : expand6 v < expand6 w := by
  rw [BitVec.lt_def] at h ⊢
  rw [expand6_toNat, expand6_toNat]
  omega

/-- Packing inverts the widening: each channel's field is truncated back to its place. -/
theorem pack565_expand (p : BitVec 16) :
    pack565 (expand5 (p.extractLsb' 11 5)) (expand6 (p.extractLsb' 5 6)) (expand5 (p.extractLsb' 0 5)) = p := by
  have hp : p.toNat < 65536 := p.isLt
  apply BitVec.eq_of_toNat_eq
  simp only [pack565_toNat, expand5_toNat_div, expand6_toNat_div, BitVec.extractLsb'_toNat,
    Nat.shiftRight_eq_div_pow, Nat.reducePow]
  omega

/-- Settles O32: the widening and the packing as sums of their fields, of which the rest is arithmetic. -/
theorem packInvertsUnpack : Obligations.PackInvertsUnpack :=
  ⟨expand5_toNat, expand6_toNat, ⟨rfl, rfl, rfl, rfl⟩, fun _ _ => expand5_strictMono, fun _ _ => expand6_strictMono,
    expand5_truncates, expand6_truncates, fun r g b => ⟨pack565_toNat r g b, rfl⟩, fun p => ⟨rfl, pack565_expand p⟩,
    rfl, rfl, rfl, rfl⟩

end Sys2Proof.Proofs

namespace Sys2Proof.Proofs

open Sys2Proof.Machine Sys2Proof.Laws

/-! ### Luma -/

/-- A brighter channel does not darken the pixel. -/
theorem luma_mono {r g b r' g' b' : Nat} (hr : r ≤ r') (hg : g ≤ g') (hb : b ≤ b') : luma r g b ≤ luma r' g' b' := by
  unfold luma
  gcongr

/-- Gray stays gray: the weights sum to 2^14, and the rounding term is less than that. -/
theorem luma_gray (v : Nat) : luma v v v = v := by
  have hweights : 4899 * v + 9617 * v + 1868 * v + 8192 = 8192 + 16384 * v := by ring
  rw [luma, hweights, Nat.add_mul_div_left _ _ (by decide), Nat.div_eq_of_lt (by decide), Nat.zero_add]

/-- No pixel is brighter than white. -/
theorem luma_le_byte {r g b : Nat} (hr : r ≤ 255) (hg : g ≤ 255) (hb : b ≤ 255) : luma r g b ≤ 255 :=
  (luma_mono hr hg hb).trans_eq (luma_gray 255)

/-- Settles O31: Luma keeps gray and the order of brightness, so white bounds it. -/
theorem lumaProperties : Obligations.LumaProperties :=
  ⟨fun _ _ _ => rfl, luma_gray, fun _ _ _ => luma_le_byte, rfl, rfl, rfl, luma_gray 255, rfl⟩

/-! ### A cycle of WRITING

WRITING rejects every command, so a cycle of it is the host access, the transmit step of a byte the sink takes, then the
write failure, then the encoder's draw. -/

/-- Phase 2 where every command is rejected. -/
theorem busPhase_of_busy (s0 : EngineState) {t : State} (c : CycleIn) (o : PortOut)
    (ht : t.state = .hdr ∨ t.state = .reading ∨ t.state = .writing) :
    busPhase s0 (withPorts c o t) = .next (withPorts c o (hostAccess s0 c t)) := by
  have hreject := commandWrite_busy c.busWdata (s := withPorts c o t) ht
  unfold busPhase hostAccess
  simp only [withPorts_inp, hreject, dataWrite_withPorts, withPorts_ite, apply_ite Host.Outcome.next]
  rfl

/-- The host access leaves the encoder's readiness and the count alone. -/
theorem hostAccess_sampled_encoder (s0 : EngineState) (c : CycleIn) (s : State) (r : List CycleIn) :
    let u := hostAccess s0 c (sampled s r)
    u.state = s.state ∧ u.encRdy = s.encRdy ∧ u.xferCount = s.xferCount := by
  obtain ⟨_, _, _, _, _, _, _, e⟩ := hostAccess_hostWrote s0 c (sampled s r)
  intro u
  rw [show u = _ from e]
  exact ⟨rfl, rfl, rfl⟩

/-- In WRITING no byte is taken (10_state.md R19). -/
theorem rxReady_of_writing {s : State} (hs : s.state = .writing) (c : CycleIn) : rxReady s c = false := by
  simp [rxReady, hs]

/-- In WRITING with the link up a byte is offered exactly when the encoder is ready (10_state.md R19). -/
theorem txValid_of_writing {s : State} {c : CycleIn} (hs : s.state = .writing) (hc : linked c = true) :
    txValid s c = s.encRdy := by
  simp only [linked, Bool.and_eq_true, Bool.not_eq_true'] at hc
  obtain ⟨hup, hrst⟩ := hc
  simp [txValid, hup, hrst, hs]

/-- What a cycle of WRITING makes of the transmit port: the transmit step if the encoder is ready and the sink takes the
byte (42_codec_encode.md R138). -/
def sendOffered (c : CycleIn) (s : State) : State :=
  if s.encRdy = true ∧ c.txReady = true then transmitByte s else s

theorem sendOffered_withPorts (d c : CycleIn) (o : PortOut) (s : State) :
    sendOffered d (withPorts c o s) = withPorts c o (sendOffered d s) := by
  simp only [sendOffered, withPorts_ite, ← transmitByte_withPorts]
  rfl

/-- XFER_COUNT counts the byte the sink takes, also the one that completes the encode. -/
theorem sendOffered_xferCount (c : CycleIn) (s : State) :
    (sendOffered c s).xferCount = s.xferCount + (if s.encRdy = true ∧ c.txReady = true then 1 else 0) := by
  unfold sendOffered
  split
  · rcases transmitByte_cases s with ⟨-, e⟩ | ⟨-, e⟩ <;> exact congrArg State.xferCount e
  · exact (BitVec.add_zero _).symm

/-- Phase 3d of WRITING (42_codec_encode.md R140). -/
def failWrite (c : CycleIn) (s : State) : State :=
  if c.txFail = true ∧ s.state = .writing then enterError (.cycleFail .shortWrite) s else s

theorem failWrite_of_none {c : CycleIn} (h : c.txFail = false) (s : State) : failWrite c s = s :=
  if_neg fun ⟨hfail, _⟩ => Bool.eq_false_iff.mp h hfail

/-- The byte that completed the encode voids the failure. -/
theorem failWrite_of_done (c : CycleIn) {s : State} (hs : s.state ≠ .writing) : failWrite c s = s :=
  if_neg fun ⟨_, h⟩ => hs h

theorem failWrite_of_open {c : CycleIn} (hfail : c.txFail = true) {s : State} (hs : s.state = .writing) :
    failWrite c s = enterError (.cycleFail .shortWrite) s := if_pos ⟨hfail, hs⟩

theorem failWrite_withPorts (d c : CycleIn) (o : PortOut) (s : State) :
    failWrite d (withPorts c o s) = withPorts c o (failWrite d s) := by
  simp only [failWrite, withPorts_state, withPorts_ite, enterError_withPorts]

/-- Phase 3 of WRITING: the sink takes the offered byte, then the write failure acts, and nothing is received. -/
theorem streamPhase_writing (idx0 : Fin 6) {s : State} (hs : s.state = .writing) (hrx : s.out.rxReady = false)
    (htx : s.out.tx.isSome = s.encRdy) :
    streamPhase .writing idx0 s = .next (failWrite s.inp (sendOffered s.inp s)) := by
  have htime : ∀ moved, timeoutStep .writing idx0 moved s = s := fun _ => rfl
  have hsend : (if (s.encRdy && s.inp.txReady) = true then transmitPhase s else .next s) =
      .next (sendOffered s.inp s) := by
    simp only [transmitPhase_writing s hs, sendOffered, apply_ite Host.Outcome.next, Bool.and_eq_true]
  have hfail : writeFailStep .writing (sendOffered s.inp s) = failWrite s.inp (sendOffered s.inp s) := by
    have hinp : (sendOffered s.inp s).inp = s.inp :=
      (congrArg State.inp (sendOffered_withPorts s.inp s.inp s.out s) :)
    simp only [writeFailStep, failWrite, hinp, true_and]
  simp only [streamPhase, hs, ne_eq, not_true_eq_false, if_false, hrx, Bool.and_false, Bool.false_eq_true,
    andThen_next, htime, ite_self, htx, hsend, hfail]

/-- What the host access and the sink leave of s, but for the ports, in a cycle of WRITING. -/
def sent (s : State) (c : CycleIn) (r : List CycleIn) : State :=
  sendOffered c (hostAccess .writing c (sampled s r))

theorem sent_xferCount (s : State) (c : CycleIn) (r : List CycleIn) :
    (sent s c r).xferCount = s.xferCount + (if s.encRdy = true ∧ c.txReady = true then 1 else 0) := by
  obtain ⟨-, hrdy, hcount⟩ := hostAccess_sampled_encoder .writing c s r
  rw [sent, sendOffered_xferCount, hrdy, hcount]

/-- A cycle of WRITING. -/
theorem step_writing {s : State} {c : CycleIn} (r : List CycleIn) (hs : s.state = .writing) (hc : linked c = true) :
    step (s.fed (c :: r)) =
      .next (commit (encoderPhase (withPorts c (outputs s c) (failWrite c (sent s c r))))) := by
  obtain ⟨hstate, hrdy, -⟩ := hostAccess_sampled_encoder .writing c s r
  have htx : (outputs s c).tx.isSome = (hostAccess .writing c (sampled s r)).encRdy := by
    rw [hrdy, outputs_tx, txValid_of_writing hs hc]
    cases s.encRdy <;> rfl
  have hstream := streamPhase_writing s.hdrIdx
    (s := withPorts c (outputs s c) (hostAccess .writing c (sampled s r))) (hstate.trans hs)
    (rxReady_of_writing hs c) htx
  rw [withPorts_inp, sendOffered_withPorts, failWrite_withPorts] at hstream
  simp only [linked, Bool.and_eq_true, Bool.not_eq_true'] at hc
  obtain ⟨hup, hrst⟩ := hc
  calc step (s.fed (c :: r))
      = andThen (busPhase s.state (linkPhase (beginCycle (s.fed (c :: r))))) fun s2 =>
          andThen (streamPhase s.state s.hdrIdx s2) fun s3 => .next (commit (encoderPhase s3)) :=
        if_neg (Bool.eq_false_iff.mp hrst)
    _ = .next (commit (encoderPhase (withPorts c (outputs s c) (failWrite c (sent s c r))))) := by
        rw [linkPhase_up hup, beginCycle_fed_eq_withPorts, hs,
          busPhase_of_busy .writing (t := sampled s r) _ _ (.inr (.inr hs)), andThen_next, hstream, andThen_next, sent]

/-! ### The write failure in WRITING -/

/-- The draw changes enc_rdy alone. -/
theorem encoderPhase_eq_encRdy (s : State) : ∃ rdy, encoderPhase s = { s with encRdy := rdy } := by
  rcases encoderPhase_cases s with ⟨-, -, e⟩ | ⟨-, e⟩
  · exact ⟨_, e⟩
  · exact ⟨s.encRdy, e⟩

/-- In WRITING a cycle with a write failure and the same cycle without it differ by phase 3d alone. -/
theorem step_writing_failure {s : State} {c : CycleIn} (r : List CycleIn) (hs : s.state = .writing)
    (hc : linked c = true) (hok : c.txFail = false) :
    step (s.fed (c :: r)) = .next (commit (encoderPhase (withPorts c (outputs s c) (sent s c r)))) ∧
    step (s.fed ({ c with txFail := true } :: r)) =
      .next (commit (encoderPhase (withPorts { c with txFail := true } (outputs s c)
        (failWrite { c with txFail := true } (sent s c r))))) := by
  constructor
  · rw [step_writing r hs hc, failWrite_of_none hok]
  · exact step_writing (c := { c with txFail := true }) r hs hc

/-- Settles O33: by whether the encode completed, the write failure is nothing or fails the cycle. Either way the cycle
with the failure has no draw; a failed cycle clears what the other one drew. -/
theorem writeFailure : Obligations.WriteFailure := by
  unfold Obligations.WriteFailure
  intro s c r hs hc hok
  obtain ⟨hwithout, hwith⟩ := step_writing_failure r hs hc hok
  have hcount := sent_xferCount s c r
  obtain ⟨rdy, hdraw⟩ := encoderPhase_eq_encRdy (withPorts c (outputs s c) (sent s c r))
  refine ⟨_, hwithout, by rwa [hdraw], fun hdone => ?_, fun hopen => ?_⟩
  · have hdone : (sent s c r).state ≠ .writing := by rwa [hdraw] at hdone
    have hnodraw : ∀ d, encoderPhase (withPorts d (outputs s c) (sent s c r)) =
        withPorts d (outputs s c) (sent s c r) := fun d => encoderPhase_of_notWriting hdone
    rw [hwith, failWrite_of_done _ hdone, hnodraw, hnodraw]
    rfl
  · have hopen : (sent s c r).state = .writing := by rwa [hdraw] at hopen
    rw [hwith, failWrite_of_open rfl hopen, ← enterError_withPorts,
      encoderPhase_of_notWriting (s := enterError (.cycleFail .shortWrite) _) nofun, commit_cycleFail, hdraw]
    rfl

end Sys2Proof.Proofs

namespace Sys2Proof.Proofs

open Sys2Proof.Machine Sys2Proof.Laws

/-! ### The four commands -/

/-- Settles O6: the two tests of POLL are its three cases. -/
theorem pollResult : Obligations.PollResult := by
  unfold Obligations.PollResult
  intro s
  refine ⟨fun hs hup => ?_, fun hs hdown => ?_, fun hs => if_pos hs⟩
  · exact (if_neg (not_not.mpr hs)).trans (if_neg (Bool.not_eq_false _ ▸ hup))
  · exact (if_neg (not_not.mpr hs)).trans (if_pos hdown)

/-- READ with a live DeviceWrites Request is the capacity check (43_transfer_engine.md R143). -/
theorem exec_read_live {s : State} (hs : s.state = .hdrDecoded) (hdir : s.reqDir = 1) :
    exec .read s =
      if decodedBytes s.reqH s.reqW s.reqFmt > s.bufBytes then .next (enterError (.cycleFail .bufOverflow) s)
      else .next { s with xferCount := 0, state := .reading } :=
  if_neg (not_or.mpr ⟨not_not.mpr hs, not_not.mpr hdir⟩)

/-- Settles O7: a live DeviceWrites Request meets the capacity check, anything else is rejected. -/
theorem readResult : Obligations.ReadResult := by
  unfold Obligations.ReadResult
  intro s
  refine ⟨fun hs hdir hfits => ?_, fun hs hdir hbig => ?_, fun hrej => if_pos hrej⟩
  · exact (exec_read_live hs hdir).trans (if_neg (Nat.not_lt.mpr hfits))
  · exact (exec_read_live hs hdir).trans (if_pos hbig)

/-- The source descriptor that WRITE asks for (43_transfer_engine.md R144). -/
theorem sourceLegal_iff (s : State) :
    sourceLegal s = true ↔
      (s.srcC = 1 ∨ s.srcC = 3) ∧ s.srcH ≠ 0 ∧ s.srcW ≠ 0 ∧
        s.srcH.toNat * s.srcW.toNat * s.srcC.toNat ≤ s.bufBytes := by
  simp only [sourceLegal, Bool.and_eq_true, Bool.or_eq_true, beq_iff_eq, bne_iff_ne, decide_eq_true_eq, and_assoc]

theorem exec_write_accepted {s : State} (hs : s.state = .hdrDecoded) (hdir : s.reqDir = 2)
    (hsrc : sourceLegal s = true) :
    exec .write s = .next { s with xferCount := 0, encRdy := false, state := .writing } :=
  (if_neg (not_or.mpr ⟨not_not.mpr hs, not_not.mpr hdir⟩)).trans (if_neg (Bool.not_eq_false _ ▸ hsrc))

theorem exec_write_rejected {s : State} (h : ¬(s.state = .hdrDecoded ∧ s.reqDir = 2 ∧ sourceLegal s = true)) :
    exec .write s = .next (reject s) := by
  by_cases hlive : s.state ≠ .hdrDecoded ∨ s.reqDir ≠ 2
  · exact if_pos hlive
  · obtain ⟨hs, hdir⟩ := not_or.mp hlive
    have hsrc : sourceLegal s = false :=
      Bool.eq_false_iff.mpr fun hsrc => h ⟨not_not.mp hs, not_not.mp hdir, hsrc⟩
    exact (if_neg hlive).trans (if_pos hsrc)

/-- Settles O8: WRITE is accepted with a live DeviceReads Request and a legal source only. -/
theorem writeResult : Obligations.WriteResult := by
  unfold Obligations.WriteResult
  intro s
  simp only [← sourceLegal_iff]
  exact ⟨exec_write_accepted, exec_write_rejected⟩

/-! ### Command words

The host issues no instruction but the four commands, each by its one word (30_encoding.md R76). -/

/-- A write to CMD issues the command that its word decodes to. -/
theorem hostCommand_eq_some {c : CycleIn} {i : Instr} :
    hostCommand c = some i ↔ writesCmd c = true ∧ decode (.command c.busWdata) = .ok i := by
  rw [hostCommand, ← writesCmd]
  split
  · next hw => cases decode (.command c.busWdata) <;> simp [hw, Except.toOption]
  · next hw => simp [hw]

/-- A word of CMD is one of the four commands, or reserved. -/
theorem decode_command_cases (w : Word) :
    (w = 1 ∧ decode (.command w) = .ok .poll) ∨ (w = 2 ∧ decode (.command w) = .ok .read) ∨
      (w = 3 ∧ decode (.command w) = .ok .write) ∨ (w = 4 ∧ decode (.command w) = .ok .cancel) ∨
      decode (.command w) = .error .reservedCommand := by
  by_cases h1 : w = 1
  · exact .inl ⟨h1, h1 ▸ rfl⟩
  by_cases h2 : w = 2
  · exact .inr (.inl ⟨h2, h2 ▸ rfl⟩)
  by_cases h3 : w = 3
  · exact .inr (.inr (.inl ⟨h3, h3 ▸ rfl⟩))
  by_cases h4 : w = 4
  · exact .inr (.inr (.inr (.inl ⟨h4, h4 ▸ rfl⟩)))
  · exact .inr (.inr (.inr (.inr
      ((if_neg h1).trans ((if_neg h2).trans ((if_neg h3).trans (if_neg h4)))))))

/-- A command has one word (30_encoding.md R91). -/
theorem encode_of_decode_command {w : Word} {i : Instr} (h : decode (.command w) = .ok i) : encode i = .command w := by
  rcases decode_command_cases w with ⟨rfl, e⟩ | ⟨rfl, e⟩ | ⟨rfl, e⟩ | ⟨rfl, e⟩ | e
  case inr.inr.inr.inr => exact nomatch h.symm.trans e
  all_goals
    obtain rfl := Except.ok.inj (h.symm.trans e)
    rfl

/-- `cancel_now` of 10_state.md R19 is a CANCEL written to the scanner. -/
theorem cancelNow_iff {s : State} {c : CycleIn} :
    cancelNow s c = true ↔ hostCommand c = some .cancel ∧ s.state = .scan := by
  have hword : c.busWdata = 4 ↔ decode (.command c.busWdata) = .ok .cancel :=
    ⟨fun h => h ▸ rfl, fun h => (CodeWord.command.inj (encode_of_decode_command h)).symm⟩
  rw [hostCommand_eq_some, ← hword]
  simp only [cancelNow, writesCmd, Bool.and_eq_true, beq_iff_eq]

/-- In the cycle of a CANCEL the scanner takes no byte (10_state.md R19). -/
theorem rxReady_of_cancelNow {s : State} {c : CycleIn} (h : cancelNow s c = true) : rxReady s c = false := by
  simp only [rxReady, h, Bool.not_true, Bool.and_false]

/-- Settles O9: the one test of CANCEL is its two cases, and `cancel_now` holds `rx_ready` at 0. -/
theorem cancelResult : Obligations.CancelResult := by
  unfold Obligations.CancelResult
  intro s
  exact ⟨fun hs => if_pos hs, fun hs => if_neg hs, fun c hcancel hs =>
    rxReady_of_cancelNow (cancelNow_iff.mpr ⟨hcancel, hs⟩)⟩

/-- A word that the matrix of 43_transfer_engine.md R147 does not accept is rejected. -/
theorem commandWrite_of_notAccepted {w : Word} {s : State} (h : commandAccepted s w = false) :
    commandWrite w s = .next (reject s) := by
  rcases decode_command_cases w with ⟨-, hw⟩ | ⟨-, hw⟩ | ⟨-, hw⟩ | ⟨-, hw⟩ | hw <;>
    simp only [commandAccepted, commandWrite, hw] at h ⊢
  · obtain ⟨-, -, hrej⟩ := pollResult s
    exact hrej fun hs => by simp [hs] at h
  · obtain ⟨-, -, hrej⟩ := readResult s
    refine hrej (not_and_or.mp fun ⟨hs, hdir⟩ => ?_)
    simp [hs, hdir] at h
  · refine exec_write_rejected fun ⟨hs, hdir, hsrc⟩ => ?_
    simp [hs, hdir, hsrc] at h
  · obtain ⟨-, hrej, -⟩ := cancelResult s
    refine hrej ?_
    rintro (hs | hs) <;> simp [hs] at h

/-- Phase 2 runs the command that the host issues. -/
theorem busPhase_of_command (s0 : EngineState) {s : State} {i : Instr} (h : hostCommand s.inp = some i) :
    busPhase s0 s = exec i s := by
  obtain ⟨hw, hdec⟩ := hostCommand_eq_some.mp h
  simp only [writesCmd, Bool.and_eq_true] at hw
  simp only [busPhase, hw, commandWrite, hdec, Bool.and_self, if_true]

end Sys2Proof.Proofs

namespace Sys2Proof.Proofs

open Sys2Proof.Machine Sys2Proof.Laws

/-! ### Phase 3 as a function of the ports

Phase 3 reads this cycle's events at the byte ports and the handshake outputs, and writes no port. -/

/-- Phase 3a, whatever the byte completes. With format 0, which no Request holds, a payload byte is dropped. -/
def receiveStep (b : Byte) (s : State) : State :=
  if s.state = .reading ∧ s.reqFmt ≠ 0 then payloadByte b s else plainByte b s

theorem receivePhase_eq_receiveStep (s : State) : receivePhase s = .next (receiveStep s.inp.rxData s) := by
  by_cases h : s.state = .reading ∧ s.reqFmt ≠ 0
  · rw [receivePhase_reading h.1 h.2, receiveStep, if_pos h]
  · rw [receivePhase_eq, receiveStep, if_neg h]
    cases hs : s.state <;> simp only [plainByte, hs]
    case reading =>
      have hf : s.reqFmt = 0 := not_not.mp fun hf => h ⟨hs, hf⟩
      simp [hf]

theorem receiveStep_writing (b : Byte) {s : State} (hs : s.state = .writing) : receiveStep b s = s := by
  simp only [receiveStep, plainByte, hs, reduceCtorEq, false_and, if_false]

theorem receiveStep_withPorts (c : CycleIn) (o : PortOut) (s : State) (b : Byte) :
    receiveStep b (withPorts c o s) = withPorts c o (receiveStep b s) := by
  simp only [receiveStep, withPorts_state, withPorts_reqFmt, withPorts_ite, payloadByte_withPorts, plainByte_withPorts]

/-- Phase 3a of a cycle: a byte moves if it is offered and `rx_ready` is 1. -/
def receiveOffered (c : CycleIn) (o : PortOut) (s : State) : State :=
  if (c.rxValid && o.rxReady) = true then receiveStep c.rxData s else s

/-- Phase 3b of a cycle. -/
def expire (s0 : EngineState) (idx0 : Fin 6) (c : CycleIn) (o : PortOut) (s : State) : State :=
  if c.rxTimeout = true ∧ s.state = s0 then timeoutStep s0 idx0 (c.rxValid && o.rxReady) s else s

/-- Phase 3c of a cycle: a byte is sent if one is offered and the sink is ready. -/
def sendTaken (c : CycleIn) (o : PortOut) (s : State) : State :=
  if (o.tx.isSome && c.txReady) = true then transmitByte s else s

/-- Phase 3d of a cycle. -/
def failStep (s0 : EngineState) (c : CycleIn) (s : State) : State := if s0 = .writing then failWrite c s else s

/-- Phase 3. -/
def streamStep (s0 : EngineState) (idx0 : Fin 6) (c : CycleIn) (o : PortOut) (s : State) : State :=
  if s.state ≠ s0 then s else failStep s0 c (sendTaken c o (expire s0 idx0 c o (receiveOffered c o s)))

section
variable (s0 : EngineState) (idx0 : Fin 6) (c : CycleIn) (o : PortOut) (s : State)

variable {s0 s} in
theorem streamStep_of_changed (hs : s.state ≠ s0) : streamStep s0 idx0 c o s = s := if_pos hs

variable {s0 s} in
theorem streamStep_of_same (hs : s.state = s0) :
    streamStep s0 idx0 c o s = failStep s0 c (sendTaken c o (expire s0 idx0 c o (receiveOffered c o s))) :=
  if_neg (not_not.mpr hs)

theorem receivePhase_withPorts :
    (if ((withPorts c o s).inp.rxValid && (withPorts c o s).out.rxReady) = true then receivePhase (withPorts c o s)
      else .next (withPorts c o s)) = .next (withPorts c o (receiveOffered c o s)) := by
  simp only [receiveOffered, receivePhase_eq_receiveStep, withPorts_inp, withPorts_out, receiveStep_withPorts,
    withPorts_ite, apply_ite Host.Outcome.next]

theorem expire_withPorts (t : State) :
    (if (withPorts c o s).inp.rxTimeout = true ∧ (withPorts c o s).state = s0 then
      timeoutStep s0 idx0 ((withPorts c o t).inp.rxValid && (withPorts c o t).out.rxReady) (withPorts c o s)
      else withPorts c o s) = withPorts c o (expire s0 idx0 c o s) := by
  simp only [expire, withPorts_inp, withPorts_out, withPorts_state, timeoutStep_withPorts, withPorts_ite]

variable {o s} in
theorem transmitPhase_withPorts (h : o.tx.isSome = true → s.state = .writing) :
    (if ((withPorts c o s).out.tx.isSome && (withPorts c o s).inp.txReady) = true then transmitPhase (withPorts c o s)
      else .next (withPorts c o s)) = .next (withPorts c o (sendTaken c o s)) := by
  by_cases hsend : (o.tx.isSome && c.txReady) = true
  · have hs := h (Bool.and_eq_true_iff.mp hsend).1
    rw [sendTaken, if_pos hsend, ← transmitByte_withPorts]
    exact (if_pos hsend).trans (transmitPhase_writing _ hs)
  · rw [sendTaken, if_neg hsend]
    exact if_neg hsend

theorem writeFailStep_withPorts_eq : writeFailStep s0 (withPorts c o s) = withPorts c o (failStep s0 c s) := by
  unfold failStep
  split
  · next h => simp only [writeFailStep, failWrite, h, withPorts_inp, withPorts_state, true_and, withPorts_ite,
      enterError_withPorts]
  · next h => exact if_neg fun ⟨_, hw, _⟩ => h hw

variable {s0 c o s} in
/-- A byte is offered in WRITING only, and there phases 3a and 3b do nothing. -/
theorem expire_receiveOffered_writing (h : s0 = .writing) (hs : s.state = s0) :
    expire s0 idx0 c o (receiveOffered c o s) = s := by
  subst h
  have hreceive : receiveOffered c o s = s := by rw [receiveOffered, receiveStep_writing _ hs, ite_self]
  rw [hreceive]
  exact ite_self s

variable {s0 o} in
theorem streamPhase_eq_streamStep (h : o.tx.isSome = true → s0 = .writing) :
    streamPhase s0 idx0 (withPorts c o s) = .next (withPorts c o (streamStep s0 idx0 c o s)) := by
  by_cases hs : s.state = s0
  · have hsend := transmitPhase_withPorts c (o := o) (s := expire s0 idx0 c o (receiveOffered c o s))
      fun htx => by rw [expire_receiveOffered_writing idx0 (h htx) hs, hs, h htx]
    rw [streamStep_of_same idx0 c o hs]
    refine (if_neg (not_not.mpr hs)).trans ?_
    simp only [receivePhase_withPorts, andThen_next, expire_withPorts, hsend, writeFailStep_withPorts_eq]
  · rw [streamStep_of_changed idx0 c o hs]
    exact streamPhase_skipped hs

end

/-! The parts of phase 3 that do nothing. -/

section
variable {s0 : EngineState} (c : CycleIn) {o : PortOut} (s : State)

theorem receiveOffered_of_notReady (hrx : o.rxReady = false) : receiveOffered c o s = s := by
  simp only [receiveOffered, hrx, Bool.and_false, Bool.false_eq_true, if_false]

/-- A time-out has a meaning in HDR and READING only (43_transfer_engine.md R154). -/
theorem expire_of_unused (idx0 : Fin 6) (o : PortOut) (hhdr : s0 ≠ .hdr) (hreading : s0 ≠ .reading) :
    expire s0 idx0 c o s = s := by
  unfold expire
  rcases timeoutStep_cases s0 idx0 (c.rxValid && o.rxReady) s with ⟨h, -⟩ | ⟨h, -⟩ | ⟨-, e⟩
  · exact absurd h hhdr
  · exact absurd h hreading
  · rw [e, ite_self]

theorem sendTaken_of_none (htx : o.tx = none) : sendTaken c o s = s := by
  simp only [sendTaken, htx, Option.isSome_none, Bool.false_and, Bool.false_eq_true, if_false]

/-- A write failure has a meaning in WRITING only (43_transfer_engine.md R154). -/
theorem failStep_of_notWriting (hwriting : s0 ≠ .writing) : failStep s0 c s = s := if_neg hwriting

/-- In IDLE, SCAN and HDR_DECODED phase 3 does nothing unless a byte moves. -/
theorem streamStep_quiet (idx0 : Fin 6) (hs0 : s0 = .idle ∨ s0 = .scan ∨ s0 = .hdrDecoded)
    (hrx : o.rxReady = false) (htx : o.tx = none) : streamStep s0 idx0 c o s = s := by
  obtain ⟨hhdr, hreading, hwriting⟩ : s0 ≠ .hdr ∧ s0 ≠ .reading ∧ s0 ≠ .writing := by
    rcases hs0 with rfl | rfl | rfl <;> decide
  rw [streamStep, receiveOffered_of_notReady c s hrx, expire_of_unused c s idx0 o hhdr hreading,
    sendTaken_of_none c s htx, failStep_of_notWriting c s hwriting, ite_self]

end

/-- A cycle without reset, from what its bus access leaves. -/
theorem step_of_busPhase {s v : State} {c : CycleIn} {r : List CycleIn} (hr : c.rst = false)
    (hbus : busPhase s.state (linkPhase (withPorts c (outputs s c) (sampled s r))) =
      .next (withPorts c (outputs s c) v)) :
    step (s.fed (c :: r)) =
      .next (commit (encoderPhase
        (withPorts c (outputs s c) (streamStep s.state s.hdrIdx c (outputs s c) v)))) := by
  have htx : (outputs s c).tx.isSome = true → s.state = .writing := by
    intro h
    by_contra hs
    have hvalid : txValid s c = false := Bool.eq_false_iff.mpr fun hv => by
      obtain ⟨-, -, hw, -⟩ := txValid_iff.mp hv
      exact hs hw
    rw [outputs_tx, hvalid] at h
    exact nomatch h
  calc step (s.fed (c :: r))
      = andThen (busPhase s.state (linkPhase (beginCycle (s.fed (c :: r))))) fun s2 =>
          andThen (streamPhase s.state s.hdrIdx s2) fun s3 => .next (commit (encoderPhase s3)) :=
        if_neg (Bool.eq_false_iff.mp hr)
    _ = _ := by
        rw [beginCycle_fed_eq_withPorts, hbus, andThen_next, streamPhase_eq_streamStep _ _ _ htx, andThen_next]

/-- Phase 1 writes no port. -/
theorem linkPhase_answers (c : CycleIn) (o : PortOut) (s : State) :
    ∃ u, linkPhase (withPorts c o s) = withPorts c o u := by
  obtain ⟨u, hu⟩ := (linkPhase_streamDecides c o s).answers
  exact ⟨u, Host.Outcome.next.inj hu⟩

/-! Phases 1, 4 and 5 of two cycles with the same link and the same draw. -/

theorem linkPhase_sameLink {c d : CycleIn} {o : PortOut} {s u : State} (hup : d.linkUp = c.linkUp)
    (hu : linkPhase (withPorts c o s) = withPorts c o u) : linkPhase (withPorts d o s) = withPorts d o u :=
  (linkPhase_withPorts o (s := withPorts c o s) hup).trans (congrArg (withPorts d o) hu :)

theorem commit_encoderPhase_sameLink {c d : CycleIn} (o : PortOut) (s : State) (hup : d.linkUp = c.linkUp)
    (hdraw : d.encDraw = c.encDraw) :
    commit (encoderPhase (withPorts d o s)) = { commit (encoderPhase (withPorts c o s)) with inp := d } := by
  obtain ⟨rdy, e⟩ := encoderPhase_eq_encRdy (withPorts c o s)
  have hlock : encoderPhase (withPorts d o s) = withPorts d o (encoderPhase (withPorts c o s)) :=
    encoderPhase_withPorts o (s := withPorts c o s) hdraw
  rw [hlock, e, commit_withPorts o (by exact hup)]
  rfl

end Sys2Proof.Proofs

namespace Sys2Proof.Proofs

open Sys2Proof.Machine Sys2Proof.Laws

/-! ### Where a cycle ends

One lemma for each way a cycle can go: reset, the link down, and with the link up each value of STATE. -/

/-- The cycle c ends in STATE e. -/
def EndsIn (s : State) (c : CycleIn) (r : List CycleIn) (e : EngineState) : Prop :=
  ∃ t, step (s.fed (c :: r)) = .next t ∧ t.state = e

theorem linked_iff {c : CycleIn} : linked c = true ↔ c.linkUp = true ∧ c.rst = false := by
  simp only [linked, Bool.and_eq_true, Bool.not_eq_true']

/-- The matrix of 43_transfer_engine.md R147, row by row. -/
theorem commandAccepted_cases {s : State} {c : CycleIn} (hw : writesCmd c = true)
    (h : commandAccepted s c.busWdata = true) :
    (hostCommand c = some .poll ∧ s.state = .idle) ∨
    (hostCommand c = some .read ∧ s.state = .hdrDecoded ∧ s.reqDir = 1) ∨
    (hostCommand c = some .write ∧ s.state = .hdrDecoded ∧ s.reqDir = 2 ∧ sourceLegal s = true) ∨
    (hostCommand c = some .cancel ∧ (s.state = .scan ∨ s.state = .hdrDecoded)) := by
  simp only [hostCommand_eq_some, hw, true_and]
  unfold commandAccepted at h
  split at h
  · next hd hs => exact .inl ⟨hd, hs⟩
  · next hd hs => exact .inr (.inl ⟨hd, hs, beq_iff_eq.mp h⟩)
  · next hd hs =>
    obtain ⟨hdir, hsrc⟩ := Bool.and_eq_true_iff.mp h
    exact .inr (.inr (.inl ⟨hd, hs, beq_iff_eq.mp hdir, hsrc⟩))
  · next hd hs => exact .inr (.inr (.inr ⟨hd, .inl hs⟩))
  · next hd hs => exact .inr (.inr (.inr ⟨hd, .inr hs⟩))
  · exact nomatch h

/-- Without an accepted command phase 2 leaves STATE as it is. -/
theorem busPhase_of_notAccepted (s0 : EngineState) {s : State}
    (h : writesCmd s.inp = true → commandAccepted s s.inp.busWdata ≠ true) :
    ∃ t, busPhase s0 s = .next t ∧ t.state = s.state := by
  obtain ⟨t, ht, _, _, _, _, _, _, _, rfl⟩ :=
    busPhase_of_rejects s0 fun hw => commandWrite_of_notAccepted (Bool.eq_false_iff.mpr (h hw))
  exact ⟨_, ht, rfl⟩

theorem encoderPhase_state (s : State) : (encoderPhase s).state = s.state := by
  rcases encoderPhase_cases s with ⟨-, -, e⟩ | ⟨-, e⟩ <;> rw [e]

/-- Phases 4 and 5 leave STATE as phase 3 left it. -/
theorem endsIn_of_busPhase {s v : State} {c : CycleIn} {r : List CycleIn} {e : EngineState} (hr : c.rst = false)
    (hbus : busPhase s.state (linkPhase (withPorts c (outputs s c) (sampled s r))) =
      .next (withPorts c (outputs s c) v))
    (hstream : (streamStep s.state s.hdrIdx c (outputs s c) v).state = e) : EndsIn s c r e :=
  ⟨_, step_of_busPhase hr hbus, (encoderPhase_state _).trans hstream⟩

/-! #### Reset and link loss -/

theorem endsIn_reset {s : State} {c : CycleIn} (r : List CycleIn) (hr : c.rst = true) : EndsIn s c r .idle :=
  ⟨_, if_pos hr, rfl⟩

/-- With the link down every state is left for IDLE (60_exceptions.md R172). -/
theorem linkPhase_down_state {s : State} (hdown : s.inp.linkUp = false) : (linkPhase s).state = .idle := by
  rcases linkPhase_cases s with ⟨-, -, e⟩ | ⟨hup | ⟨-, hs⟩, e⟩
  · rw [e]; rfl
  · exact nomatch hdown.symm.trans hup
  · rw [e, hs]

/-- In IDLE with the link down no command leads anywhere (43_transfer_engine.md R142, R147). -/
theorem busPhase_down_state (s0 : EngineState) {s : State} (hs : s.state = .idle) (hdown : s.inp.linkUp = false) :
    ∃ t, busPhase s0 s = .next t ∧ t.state = .idle := by
  by_cases hpoll : hostCommand s.inp = some .poll
  · obtain ⟨-, hfatal, -⟩ := pollResult s
    exact ⟨_, (busPhase_of_command s0 hpoll).trans (hfatal hs hdown), rfl⟩
  · rw [← hs]
    refine busPhase_of_notAccepted s0 fun hw hacc => ?_
    rcases commandAccepted_cases hw hacc with ⟨h, -⟩ | ⟨-, h, -⟩ | ⟨-, h, -⟩ | ⟨-, h | h⟩
    · exact hpoll h
    all_goals exact nomatch hs.symm.trans h

theorem endsIn_linkDown {s : State} {c : CycleIn} (r : List CycleIn) (hr : c.rst = false) (hdown : c.linkUp = false) :
    EndsIn s c r .idle := by
  have hrx : (outputs s c).rxReady = false := by simp [rxReady, hdown]
  have htx : (outputs s c).tx = none := by simp [txValid, hdown]
  obtain ⟨u, hu⟩ := linkPhase_answers c (outputs s c) (sampled s r)
  obtain ⟨v, hv⟩ := busPhase_answers c (outputs s c) s.state u
  have huidle : (withPorts c (outputs s c) u).state = .idle := hu ▸ linkPhase_down_state hdown
  have hvidle : v.state = .idle := by
    obtain ⟨v', hv', hidle⟩ := busPhase_down_state s.state huidle hdown
    exact (congrArg State.state (Host.Outcome.next.inj (hv.symm.trans hv'))).trans hidle
  refine endsIn_of_busPhase hr ((congrArg _ hu).trans hv) ?_
  by_cases hs : s.state = .idle
  · rw [streamStep_quiet c v s.hdrIdx (.inl hs) hrx htx, hvidle]
  · rw [streamStep_of_changed s.hdrIdx c _ fun h => hs (h.symm.trans hvidle), hvidle]

/-! #### IDLE, HDR_DECODED, and SCAN with a CANCEL: only the host acts -/

/-- A cycle in which no byte moves ends where its bus access leads. -/
theorem endsIn_quiet {s u : State} {c : CycleIn} (r : List CycleIn) (hc : linked c = true)
    (hs : s.state = .idle ∨ s.state = .hdrDecoded ∨ s.state = .scan ∧ hostCommand c = some .cancel)
    (hbus : busPhase s.state (withPorts c (outputs s c) (sampled s r)) = .next u) : EndsIn s c r u.state := by
  obtain ⟨hup, hr⟩ := linked_iff.mp hc
  have hrx : (outputs s c).rxReady = false := by
    rcases hs with hs | hs | ⟨hs, hcancel⟩
    · simp [rxReady, hs]
    · simp [rxReady, hs]
    · exact rxReady_of_cancelNow (cancelNow_iff.mpr ⟨hcancel, hs⟩)
  have htx : (outputs s c).tx = none := by
    rcases hs with hs | hs | ⟨hs, -⟩ <;> simp [txValid, hs]
  have hs0 : s.state = .idle ∨ s.state = .scan ∨ s.state = .hdrDecoded := by tauto
  obtain ⟨v, hv⟩ := busPhase_answers c (outputs s c) s.state (sampled s r)
  obtain rfl := Host.Outcome.next.inj (hv.symm.trans hbus)
  refine endsIn_of_busPhase hr ((congrArg _ (linkPhase_up hup)).trans hv) ?_
  rw [streamStep_quiet c v s.hdrIdx hs0 hrx htx, withPorts_state]

theorem endsIn_idle {s : State} {c : CycleIn} (r : List CycleIn) (hs : s.state = .idle) (hc : linked c = true) :
    EndsIn s c r (if hostCommand c = some .poll then .scan else .idle) := by
  obtain ⟨hup, -⟩ := linked_iff.mp hc
  by_cases hpoll : hostCommand c = some .poll
  · rw [if_pos hpoll]
    obtain ⟨haccept, -, -⟩ := pollResult (withPorts c (outputs s c) (sampled s r))
    exact endsIn_quiet r hc (.inl hs) ((busPhase_of_command _ hpoll).trans (haccept hs hup))
  · rw [if_neg hpoll]
    obtain ⟨t, ht, hstate⟩ := busPhase_of_notAccepted s.state (s := withPorts c (outputs s c) (sampled s r))
      fun hw hacc => by
        rcases commandAccepted_cases hw hacc with ⟨h, -⟩ | ⟨-, h, -⟩ | ⟨-, h, -⟩ | ⟨-, h | h⟩
        · exact hpoll h
        all_goals exact nomatch hs.symm.trans h
    exact (hstate.trans hs) ▸ endsIn_quiet r hc (.inl hs) ht

theorem endsIn_cancel {s : State} {c : CycleIn} (r : List CycleIn) (hs : s.state = .scan ∨ s.state = .hdrDecoded)
    (hc : linked c = true) (hcancel : hostCommand c = some .cancel) : EndsIn s c r .idle := by
  obtain ⟨haccept, -, -⟩ := cancelResult (withPorts c (outputs s c) (sampled s r))
  have hquiet := hs.symm.imp_right fun h => And.intro h hcancel
  exact endsIn_quiet r hc (.inr hquiet) ((busPhase_of_command _ hcancel).trans (haccept hs))

theorem endsIn_read {s : State} {c : CycleIn} (r : List CycleIn) (hs : s.state = .hdrDecoded) (hc : linked c = true)
    (hread : hostCommand c = some .read) (hdir : s.reqDir = 1) :
    EndsIn s c r (if decodedBytes s.reqH s.reqW s.reqFmt ≤ s.bufBytes then .reading else .idle) := by
  obtain ⟨hstarts, hfails, -⟩ := readResult (withPorts c (outputs s c) (sampled s r))
  have hbus := busPhase_of_command s.state (s := withPorts c (outputs s c) (sampled s r)) hread
  split
  · next hfits => exact endsIn_quiet r hc (.inr (.inl hs)) (hbus.trans (hstarts hs hdir hfits))
  · next hbig => exact endsIn_quiet r hc (.inr (.inl hs)) (hbus.trans (hfails hs hdir (Nat.lt_of_not_le hbig)))

theorem endsIn_write {s : State} {c : CycleIn} (r : List CycleIn) (hs : s.state = .hdrDecoded) (hc : linked c = true)
    (hwrite : hostCommand c = some .write) (hdir : s.reqDir = 2) (hsrc : sourceLegal s = true) :
    EndsIn s c r .writing :=
  endsIn_quiet r hc (.inr (.inl hs)) ((busPhase_of_command _ hwrite).trans
    (exec_write_accepted (s := withPorts c (outputs s c) (sampled s r)) hs hdir hsrc))

theorem endsIn_hdrDecoded {s : State} {c : CycleIn} (r : List CycleIn) (hs : s.state = .hdrDecoded)
    (hc : linked c = true) :
    EndsIn s c r
      (if hostCommand c = some .read ∧ s.reqDir = 1 then
        if decodedBytes s.reqH s.reqW s.reqFmt ≤ s.bufBytes then .reading else .idle
      else if hostCommand c = some .write ∧ s.reqDir = 2 ∧ sourceLegal s = true then .writing
      else if hostCommand c = some .cancel then .idle
      else .hdrDecoded) := by
  by_cases hread : hostCommand c = some .read ∧ s.reqDir = 1
  · rw [if_pos hread]
    exact endsIn_read r hs hc hread.1 hread.2
  by_cases hwrite : hostCommand c = some .write ∧ s.reqDir = 2 ∧ sourceLegal s = true
  · rw [if_neg hread, if_pos hwrite]
    obtain ⟨hcmd, hdir, hsrc⟩ := hwrite
    exact endsIn_write r hs hc hcmd hdir hsrc
  by_cases hcancel : hostCommand c = some .cancel
  · rw [if_neg hread, if_neg hwrite, if_pos hcancel]
    exact endsIn_cancel r (.inr hs) hc hcancel
  · rw [if_neg hread, if_neg hwrite, if_neg hcancel]
    obtain ⟨t, ht, hstate⟩ := busPhase_of_notAccepted s.state (s := withPorts c (outputs s c) (sampled s r))
      fun hw hacc => by
        rcases commandAccepted_cases hw hacc with ⟨-, h⟩ | ⟨h, -, hdir⟩ | ⟨h, -, hdir, hsrc⟩ | ⟨h, -⟩
        · exact nomatch hs.symm.trans h
        · exact hread ⟨h, hdir⟩
        · exact hwrite ⟨h, hdir, hsrc⟩
        · exact hcancel h
    exact (hstate.trans hs) ▸ endsIn_quiet r hc (.inr (.inl hs)) ht

/-! #### SCAN and HDR: the offered byte, then the time-out -/

theorem endsIn_scan {s : State} {c : CycleIn} (r : List CycleIn) (hs : s.state = .scan) (hc : linked c = true) :
    EndsIn s c r
      (if hostCommand c = some .cancel then .idle
      else if c.rxValid ∧ s.seenM0 ∧ c.rxData = 0x54 then .hdr
      else .scan) := by
  by_cases hcancel : hostCommand c = some .cancel
  · rw [if_pos hcancel]
    exact endsIn_cancel r (.inl hs) hc hcancel
  obtain ⟨hup, hr⟩ := linked_iff.mp hc
  obtain ⟨hstate, hseen, -⟩ := hostAccess_sampled .scan c s r
  rw [if_neg hcancel]
  refine ⟨_, step_taking r (.inl hs) (rxReady_of_undisturbed (.inl hs) (undisturbed_iff.mpr ⟨hup, hr, hcancel⟩)), ?_⟩
  rw [hs, timeOut_scan, commit_state, withPorts_state, taken, hs]
  cases hv : c.rxValid with
  | false =>
    rw [takeOffered_of_idle hv, if_neg fun h => nomatch h.1]
    exact hstate.trans hs
  | true =>
    rw [takeOffered_of_valid hv, plainByte_scan _ (hstate.trans hs)]
    rcases scanByte_cases c.rxData (hostAccess .scan c (sampled s r)) with ⟨hm, hb, e⟩ | ⟨hno, e⟩ <;> rw [e]
    · rw [if_pos ⟨rfl, hseen ▸ hm, hb⟩]
    · rw [if_neg fun ⟨_, hm, hb⟩ => hno ⟨hseen ▸ hm, hb⟩]
      exact hstate.trans hs

/-- A completed header leads where its fields say (43_transfer_engine.md R141). -/
theorem headerComplete_state (dir : Byte) (height width : Half) (fmt : Byte) (s : State) :
    (headerComplete dir height width fmt s).state = headerTarget dir height width fmt := by
  rcases headerComplete_cases dir height width fmt s with ⟨code, hbad, e⟩ | ⟨hwf, hbig, e⟩ | ⟨hwf, hfits, e⟩ <;> rw [e]
  · exact (if_neg (Bool.eq_false_iff.mp hbad)).symm
  · exact ((if_pos hwf).trans (if_pos hbig)).symm
  · exact ((if_pos hwf).trans (if_neg (Nat.not_lt.mpr hfits))).symm

/-- In HDR the last byte completes the header. -/
theorem taken_lastByte_state {s : State} {c : CycleIn} (r : List CycleIn) (hs : s.state = .hdr) (h5 : s.hdrIdx = 5)
    (hv : c.rxValid = true) :
    (taken s c r).state =
      headerTarget s.hdrRaw.b0 (halfOf s.hdrRaw.b1 s.hdrRaw.b2) (halfOf s.hdrRaw.b3 s.hdrRaw.b4) c.rxData := by
  obtain ⟨hstate, -, -, hidx, hraw⟩ := hostAccess_sampled s.state c s r
  rw [taken, takeOffered_of_valid hv, plainByte_hdr _ (hstate.trans hs), hdrByte_last _ _ (hidx.trans h5), hraw,
    headerComplete_state]

/-- Any other cycle of HDR leaves STATE to the time-out. -/
theorem taken_field_state {s : State} {c : CycleIn} (r : List CycleIn) (hs : s.state = .hdr)
    (h : c.rxValid = false ∨ s.hdrIdx ≠ 5) : (taken s c r).state = .hdr := by
  obtain ⟨hstate, -, -, hidx, -⟩ := hostAccess_sampled s.state c s r
  cases hv : c.rxValid with
  | false =>
    rw [taken, takeOffered_of_idle hv]
    exact hstate.trans hs
  | true =>
    have h5 : s.hdrIdx ≠ 5 := h.resolve_left fun hf => nomatch hv.symm.trans hf
    rw [taken, takeOffered_of_valid hv, plainByte_hdr _ (hstate.trans hs), hdrByte_field _ _ (by rwa [hidx])]
    exact hstate.trans hs

/-- In HDR the time-out leads back to SCAN exactly amid a read unit. -/
theorem timeOut_hdr_state {s : State} {c : CycleIn} (idx0 : Fin 6) (hs : s.state = .hdr) :
    (timeOut .hdr idx0 c s).state =
      if c.rxTimeout = true ∧ (c.rxValid = false ∨ idx0 = 1 ∨ idx0 = 3) then .scan else .hdr := by
  by_cases hto : c.rxTimeout = true
  · by_cases hopen : c.rxValid = false ∨ idx0 = 1 ∨ idx0 = 3
    · rw [timeOut_hdr_of_unitOpen hto hopen hs, if_pos ⟨hto, hopen⟩]
      rfl
    · obtain ⟨hv, h1, h3⟩ := (not_or.trans (and_congr_right fun _ => not_or)).mp hopen
      rw [timeOut_hdr_of_unitDone (Bool.not_eq_false _ ▸ hv) h1 h3, if_neg fun h => hopen h.2, hs]
  · rw [timeOut_of_none (Bool.eq_false_iff.mpr hto), if_neg fun h => hto h.1, hs]

theorem endsIn_hdr {s : State} {c : CycleIn} (r : List CycleIn) (hs : s.state = .hdr) (hc : linked c = true) :
    EndsIn s c r
      (if c.rxValid then
        if s.hdrIdx = 5 then
          headerTarget s.hdrRaw.b0 (halfOf s.hdrRaw.b1 s.hdrRaw.b2) (halfOf s.hdrRaw.b3 s.hdrRaw.b4) c.rxData
        else if c.rxTimeout ∧ (s.hdrIdx = 1 ∨ s.hdrIdx = 3) then .scan
        else .hdr
      else if c.rxTimeout then .scan
      else .hdr) := by
  refine ⟨_, step_taking r (.inr hs) (rxReady_of_linked hs hc), ?_⟩
  rw [commit_state, withPorts_state, hs]
  cases hv : c.rxValid with
  | false =>
    rw [timeOut_hdr_state _ (taken_field_state r hs (.inl hv)), hv]
    simp
  | true =>
    by_cases h5 : s.hdrIdx = 5
    · rw [timeOut_hdr_of_unitDone hv (by rw [h5]; decide) (by rw [h5]; decide), taken_lastByte_state r hs h5 hv]
      simp [h5]
    · rw [timeOut_hdr_state _ (taken_field_state r hs (.inr h5)), hv]
      simp [h5]

/-! #### READING and WRITING: the byte that completes the transfer, then the time-out or the failure -/

/-- The host access leaves the transfer's length alone. -/
theorem hostAccess_sampled_payloadSize (s0 : EngineState) (c : CycleIn) (s : State) (r : List CycleIn) :
    (hostAccess s0 c (sampled s r)).payloadSize = s.payloadSize := by
  obtain ⟨_, _, _, _, _, _, _, e⟩ := hostAccess_hostWrote s0 c (sampled s r)
  rw [e]
  rfl

/-- The last payload byte ends the decode. -/
theorem payloadByte_state (b : Byte) (s : State) :
    (payloadByte b s).state = if s.xferCount + 1 = s.payloadSize then .idle else s.state := by
  obtain ⟨m, held, e⟩ := payloadByte_advances b s
  rw [e]
  rcases decodeAdvance_cases { s with dstBuf := m, pend := held } with ⟨hlast, e⟩ | ⟨hmore, e⟩ <;> rw [e]
  · exact (if_pos hlast).symm
  · exact (if_neg hmore).symm

theorem received_state {s : State} (c : CycleIn) (r : List CycleIn) (hs : s.state = .reading) :
    (received s c r).state =
      if c.rxValid = true ∧ s.xferCount + 1 = s.payloadSize then .idle else .reading := by
  obtain ⟨-, -, hcount, -⟩ := hostAccess_sampled_transfer .reading c s r
  have hstate : (hostAccess .reading c (sampled s r)).state = .reading := (hostAccess_sampled _ c s r).1.trans hs
  cases hv : c.rxValid with
  | false => simp [received, takePayload_of_idle hv, hstate]
  | true =>
    rw [received, takePayload_of_valid hv, payloadByte_state, hcount, hostAccess_sampled_payloadSize, hstate]
    simp

theorem endsIn_reading {s : State} {c : CycleIn} (r : List CycleIn) (hs : s.state = .reading) (hf : s.reqFmt ≠ 0)
    (hc : linked c = true) :
    EndsIn s c r
      (if c.rxValid ∧ s.xferCount + 1 = s.payloadSize then .idle
      else if c.rxTimeout then .idle
      else .reading) := by
  have hstate := received_state c r hs
  refine ⟨_, step_reading r hs hf hc, ?_⟩
  rw [commit_state, withPorts_state]
  by_cases hdone : c.rxValid = true ∧ s.xferCount + 1 = s.payloadSize
  · rw [if_pos hdone] at hstate ⊢
    rw [timeOut_reading_of_done _ _ (by rw [hstate]; nofun), hstate]
  rw [if_neg hdone] at hstate ⊢
  cases hto : c.rxTimeout with
  | false => rw [timeOut_of_none hto, hstate]; rfl
  | true => rw [timeOut_reading_of_open _ hto hstate]; rfl

/-- The last byte the sink takes ends the encode. -/
theorem transmitByte_state (s : State) :
    (transmitByte s).state = if s.xferCount + 1 = s.payloadSize then .idle else s.state := by
  rcases transmitByte_cases s with ⟨hlast, e⟩ | ⟨hmore, e⟩ <;> rw [e]
  · exact (if_pos hlast).symm
  · exact (if_neg hmore).symm

theorem sent_state {s : State} (c : CycleIn) (r : List CycleIn) (hs : s.state = .writing) :
    (sent s c r).state =
      if s.encRdy = true ∧ c.txReady = true ∧ s.xferCount + 1 = s.payloadSize then .idle else .writing := by
  obtain ⟨hstate, hrdy, hcount⟩ := hostAccess_sampled_encoder .writing c s r
  rw [sent, sendOffered, hrdy, apply_ite State.state, transmitByte_state, hcount, hostAccess_sampled_payloadSize,
    hstate, hs, ← ite_and]
  simp only [and_assoc]

theorem endsIn_writing {s : State} {c : CycleIn} (r : List CycleIn) (hs : s.state = .writing) (hc : linked c = true) :
    EndsIn s c r
      (if s.encRdy ∧ c.txReady ∧ s.xferCount + 1 = s.payloadSize then .idle
      else if c.txFail then .idle
      else .writing) := by
  have hstate := sent_state c r hs
  refine ⟨_, step_writing r hs hc, ?_⟩
  rw [commit_state, encoderPhase_state, withPorts_state]
  by_cases hdone : s.encRdy = true ∧ c.txReady = true ∧ s.xferCount + 1 = s.payloadSize
  · rw [if_pos hdone] at hstate ⊢
    rw [failWrite_of_done _ (by rw [hstate]; nofun), hstate]
  rw [if_neg hdone] at hstate ⊢
  cases hfail : c.txFail with
  | false => rw [failWrite_of_none hfail, hstate]; rfl
  | true => rw [failWrite_of_open hfail hstate]; rfl

/-! ### The transition table -/

/-- With the link up and no reset the table is one `if` chain for each value of STATE. -/
theorem endsIn_linked {s : State} {c : CycleIn} (r : List CycleIn) (hinv : Invariant s) (hc : linked c = true) :
    EndsIn s c r (tableNext s c) := by
  obtain ⟨hup, hr⟩ := linked_iff.mp hc
  unfold tableNext
  rw [if_neg (Bool.eq_false_iff.mp hr), if_neg (by rw [hup]; nofun)]
  cases hs : s.state with
  | idle => exact endsIn_idle r hs hc
  | scan => exact endsIn_scan r hs hc
  | hdr => exact endsIn_hdr r hs hc
  | hdrDecoded => exact endsIn_hdrDecoded r hs hc
  | reading =>
    have hf : s.reqFmt ≠ 0 := by
      rcases hinv.format_legal (by rw [hs]; rfl) with h | h | h <;> rw [h] <;> decide
    exact endsIn_reading r hs hf hc
  | writing => exact endsIn_writing r hs hc

theorem endsIn_tableNext {s : State} (c : CycleIn) (r : List CycleIn) (hinv : Invariant s) :
    EndsIn s c r (tableNext s c) := by
  by_cases hr : c.rst = true
  · rw [show tableNext s c = .idle from if_pos hr]
    exact endsIn_reset r hr
  by_cases hdown : c.linkUp = false
  · rw [show tableNext s c = .idle from (if_neg hr).trans (if_pos hdown)]
    exact endsIn_linkDown r (Bool.eq_false_iff.mpr hr) hdown
  · exact endsIn_linked r hinv (linked_iff.mpr ⟨Bool.not_eq_false _ ▸ hdown, Bool.eq_false_iff.mpr hr⟩)

/-- A step is the cycle of its current inputs. -/
theorem step_fed_currentInput (s : State) : step (s.fed (currentInput s :: s.inputs.tail)) = step s := rfl

/-- Settles O60: reset, the link down, and each value of STATE end where the table says; in READING the invariants shut
out REQ_FMT 0. -/
theorem transitionTable : Obligations.TransitionTable := by
  unfold Obligations.TransitionTable
  intro s t hinv ht
  obtain ⟨u, hu, hstate⟩ := endsIn_tableNext (currentInput s) s.inputs.tail hinv
  rw [step_fed_currentInput, ht] at hu
  rwa [Host.Outcome.next.inj hu]

end Sys2Proof.Proofs

namespace Sys2Proof.Proofs

open Sys2Proof.Machine Sys2Proof.Laws

/-! ### Two cycles with the same host

Cycles that agree in all but the events at the byte ports meet phase 3 in the same state. -/

/-- An outcome whose next state goes through f. -/
def mapNext (f : State → State) (x : Host.Outcome State Fault Refusal) : Host.Outcome State Fault Refusal :=
  andThen x fun t => .next (f t)

/-- The inputs d agree with c in all but the events at the byte ports. -/
structure SameHost (c d : CycleIn) : Prop where
  rst : d.rst = c.rst
  linkUp : d.linkUp = c.linkUp
  busEn : d.busEn = c.busEn
  busWe : d.busWe = c.busWe
  busW32 : d.busW32 = c.busW32
  busAddr : d.busAddr = c.busAddr
  busWdata : d.busWdata = c.busWdata
  encDraw : d.encDraw = c.encDraw

/-- The outputs read no event. -/
theorem SameHost.outputs_eq {c d : CycleIn} (h : SameHost c d) (s : State) : outputs s d = outputs s c := by
  have hrx : rxReady s d = rxReady s c := by
    simp only [rxReady, cancelNow, h.rst, h.linkUp, h.busEn, h.busWe, h.busW32, h.busAddr, h.busWdata]
  have htx : txValid s d = txValid s c := by simp only [txValid, h.rst, h.linkUp]
  have hbus : busRdata s d = busRdata s c := by
    rw [busRdata, h.busEn, h.busWe, h.busW32, h.busAddr, ← busRdata]
  rw [outputs, hrx, htx, hbus, ← outputs]

section
variable {c : CycleIn} (o : PortOut) {s : State}

/-- Of the four commands POLL alone reads a port, and that is the link. -/
theorem commandWrite_withPorts (w : Word) (hup : c.linkUp = s.inp.linkUp) :
    commandWrite w (withPorts c o s) = mapNext (withPorts c o) (commandWrite w s) := by
  have hpoll : exec .poll (withPorts c o s) = mapNext (withPorts c o) (exec .poll s) := by
    simp only [exec, execPoll, apply_ite (mapNext _), ← hup]
    rfl
  have hread : exec .read (withPorts c o s) = mapNext (withPorts c o) (exec .read s) := by
    simp only [exec, execRead, apply_ite (mapNext _)]
    rfl
  have hwrite : exec .write (withPorts c o s) = mapNext (withPorts c o) (exec .write s) := by
    simp only [exec, execWrite, apply_ite (mapNext _)]
    rfl
  have hcancel : exec .cancel (withPorts c o s) = mapNext (withPorts c o) (exec .cancel s) := by
    simp only [exec, execCancel, apply_ite (mapNext _)]
    rfl
  simp only [commandWrite_eq, apply_ite (mapNext _), hpoll, hread, hwrite, hcancel]
  rfl

theorem busPhase_withPorts (s0 : EngineState) (h : SameHost s.inp c) :
    busPhase s0 (withPorts c o s) = mapNext (withPorts c o) (busPhase s0 s) := by
  simp only [busPhase, withPorts_inp, h.busEn, h.busWe, h.busW32, h.busAddr, h.busWdata,
    commandWrite_withPorts o _ h.linkUp, dataWrite_withPorts, apply_ite (mapNext _)]
  rfl

end

theorem busPhase_sameHost {c d : CycleIn} {o : PortOut} {s0 : EngineState} {s v : State} (h : SameHost c d)
    (hbus : busPhase s0 (withPorts c o s) = .next (withPorts c o v)) :
    busPhase s0 (withPorts d o s) = .next (withPorts d o v) :=
  (busPhase_withPorts o s0 (s := withPorts c o s) h).trans (congrArg (mapNext (withPorts d o)) hbus :)

/-- What tells two cycles with the same host apart is phase 3: if it does the same in both, they lead to the same state
but for the record of the inputs. -/
theorem step_sameHost {s t : State} {c d : CycleIn} {r : List CycleIn} (h : SameHost c d)
    (hstream : ∀ v, streamStep s.state s.hdrIdx d (outputs s c) v = streamStep s.state s.hdrIdx c (outputs s c) v)
    (ht : step (s.fed (c :: r)) = .next t) : step (s.fed (d :: r)) = .next { t with inp := d } := by
  have hout : outputs s d = outputs s c := h.outputs_eq s
  cases hr : c.rst with
  | true =>
    have hc : step (s.fed (c :: r)) = .next (resetRegisters (withPorts c (outputs s c) (sampled s r))) := if_pos hr
    have hd : step (s.fed (d :: r)) = .next (resetRegisters (withPorts d (outputs s d) (sampled s r))) :=
      if_pos (h.rst.trans hr)
    rw [hd, hout, ← Host.Outcome.next.inj (hc.symm.trans ht)]
    rfl
  | false =>
    obtain ⟨u, hu⟩ := linkPhase_answers c (outputs s c) (sampled s r)
    obtain ⟨v, hv⟩ := busPhase_answers c (outputs s c) s.state u
    have hc := step_of_busPhase hr ((congrArg (busPhase s.state) hu).trans hv)
    have hd := step_of_busPhase (s := s) (v := v) (r := r) (h.rst.trans hr) (by
      rw [hout, linkPhase_sameLink h.linkUp hu, busPhase_sameHost h hv])
    rw [hd, hout, hstream, commit_encoderPhase_sameLink _ _ h.linkUp h.encDraw,
      ← Host.Outcome.next.inj (hc.symm.trans ht)]

/-! ### Events the state does not use -/

theorem streamStep_rxTimeout {s0 : EngineState} (idx0 : Fin 6) (c : CycleIn) (o : PortOut) (v : Bool) (s : State)
    (hhdr : s0 ≠ .hdr) (hreading : s0 ≠ .reading) :
    streamStep s0 idx0 { c with rxTimeout := v } o s = streamStep s0 idx0 c o s := by
  simp only [streamStep, expire_of_unused _ _ idx0 o hhdr hreading]
  rfl

theorem streamStep_txFail {s0 : EngineState} (idx0 : Fin 6) (c : CycleIn) (o : PortOut) (v : Bool) (s : State)
    (hwriting : s0 ≠ .writing) :
    streamStep s0 idx0 { c with txFail := v } o s = streamStep s0 idx0 c o s := by
  simp only [streamStep, failStep_of_notWriting _ _ hwriting]
  rfl

/-- Without `rx_ready` no byte moves, so none completes a read unit either. -/
theorem streamStep_rxValid (s0 : EngineState) (idx0 : Fin 6) (c : CycleIn) {o : PortOut} (v : Bool) (b : Byte)
    (s : State) (hrx : o.rxReady = false) :
    streamStep s0 idx0 { c with rxValid := v, rxData := b } o s = streamStep s0 idx0 c o s := by
  simp only [streamStep, receiveOffered_of_notReady _ _ hrx, expire, hrx, Bool.and_false]
  rfl

theorem streamStep_txReady (s0 : EngineState) (idx0 : Fin 6) (c : CycleIn) {o : PortOut} (v : Bool) (s : State)
    (htx : o.tx = none) : streamStep s0 idx0 { c with txReady := v } o s = streamStep s0 idx0 c o s := by
  simp only [streamStep, sendTaken_of_none _ _ htx]
  rfl

/-- Settles O54: none of the four events reaches the host's phases or the outputs, and phase 3 does the same with it and
without it. -/
theorem ignoredEvents : Obligations.IgnoredEvents := by
  unfold Obligations.IgnoredEvents
  intro s c r
  obtain ⟨t, ht, -, -⟩ := step_answers (s.fed (c :: r))
  refine ⟨t, ht, fun v hhdr hreading => ?_, fun v hwriting => ?_, fun v b hrx => ?_, fun v htx => ?_⟩
  · exact step_sameHost (c := c) ⟨rfl, rfl, rfl, rfl, rfl, rfl, rfl, rfl⟩
      (fun u => streamStep_rxTimeout s.hdrIdx c _ v u hhdr hreading) ht
  · exact step_sameHost (c := c) ⟨rfl, rfl, rfl, rfl, rfl, rfl, rfl, rfl⟩
      (fun u => streamStep_txFail s.hdrIdx c _ v u hwriting) ht
  · exact step_sameHost (c := c) ⟨rfl, rfl, rfl, rfl, rfl, rfl, rfl, rfl⟩
      (fun u => streamStep_rxValid s.state s.hdrIdx c v b u hrx) ht
  · have hnone : (outputs s c).tx = none := by rw [outputs_tx, htx]; rfl
    exact step_sameHost (c := c) ⟨rfl, rfl, rfl, rfl, rfl, rfl, rfl, rfl⟩
      (fun u => streamStep_txReady s.state s.hdrIdx c v u hnone) ht

end Sys2Proof.Proofs

namespace Sys2Proof.Proofs

open Sys2Proof.Machine Sys2Proof.Laws

/-! ### A rejection on its way through the cycle

CMDREJ joins the set mask in phase 2, and no later operation reads the mask: each does the same with it and without
it. -/

section
variable (s : State)

theorem reject_ite (q : Prop) [Decidable q] (t : State) :
    reject (if q then s else t) = if q then reject s else reject t := apply_ite reject q s t

theorem setIrq_reject (b : IrqBit) : setIrq b (reject s) = reject (setIrq b s) := by
  have hmask : s.irqSet ||| 0x40 ||| b.mask = s.irqSet ||| b.mask ||| 0x40 := by
    rw [BitVec.or_assoc, BitVec.or_comm 0x40, ← BitVec.or_assoc]
  exact congrArg (fun m => { s with irqSet := m }) hmask

theorem enterError_reject (e : ErrorEntry) : enterError e (reject s) = reject (enterError e s) := by
  cases e <;> simp only [enterError, ← setIrq_reject] <;> rfl

theorem scanByte_reject (b : Byte) : scanByte b (reject s) = reject (scanByte b s) := by
  simp only [scanByte, reject_ite]
  rfl

theorem headerComplete_reject (dir : Byte) (height width : Half) (fmt : Byte) :
    headerComplete dir height width fmt (reject s) = reject (headerComplete dir height width fmt s) := by
  simp only [headerComplete, reject_ite, sizeOverflow, acceptHeader, ← enterError_reject, ← setIrq_reject]
  rfl

theorem hdrByte_reject (b : Byte) : hdrByte b (reject s) = reject (hdrByte b s) := by
  simp only [hdrByte, reject_ite, ← headerComplete_reject]
  rfl

theorem plainByte_reject (b : Byte) : plainByte b (reject s) = reject (plainByte b s) := by
  cases hs : s.state <;> simp only [plainByte, reject_state, hs]
  case scan => exact scanByte_reject s b
  case hdr => exact hdrByte_reject s b

theorem decodeAdvance_reject : decodeAdvance (reject s) = reject (decodeAdvance s) := by
  simp only [decodeAdvance, reject_ite, decodeComplete, ← setIrq_reject]
  rfl

theorem payloadByte_reject (b : Byte) : payloadByte b (reject s) = reject (payloadByte b s) := by
  simp only [payloadByte, readPackedByte, readPlainByte, reject_ite, ← decodeAdvance_reject]
  rfl

theorem receiveStep_reject (b : Byte) : receiveStep b (reject s) = reject (receiveStep b s) := by
  simp only [receiveStep, reject_ite, ← payloadByte_reject, ← plainByte_reject]
  rfl

theorem transmitByte_reject : transmitByte (reject s) = reject (transmitByte s) := by
  simp only [transmitByte, reject_ite, encodeComplete, ← setIrq_reject]
  rfl

theorem timeoutStep_reject (s0 : EngineState) (idx0 : Fin 6) (moved : Bool) :
    timeoutStep s0 idx0 moved (reject s) = reject (timeoutStep s0 idx0 moved s) := by
  cases s0
  case hdr => simp only [timeoutStep, reject_ite, enterError_reject]
  case reading => simp only [timeoutStep, enterError_reject]
  all_goals rfl

theorem failWrite_reject (c : CycleIn) : failWrite c (reject s) = reject (failWrite c s) := by
  simp only [failWrite, reject_ite, enterError_reject, reject_state]

theorem streamStep_reject (s0 : EngineState) (idx0 : Fin 6) (c : CycleIn) (o : PortOut) :
    streamStep s0 idx0 c o (reject s) = reject (streamStep s0 idx0 c o s) := by
  have hreceive : receiveOffered c o (reject s) = reject (receiveOffered c o s) := by
    simp only [receiveOffered, reject_ite, receiveStep_reject]
  have hexpire : ∀ t, expire s0 idx0 c o (reject t) = reject (expire s0 idx0 c o t) := fun t => by
    simp only [expire, reject_ite, timeoutStep_reject, reject_state]
  have hsend : ∀ t, sendTaken c o (reject t) = reject (sendTaken c o t) := fun t => by
    simp only [sendTaken, reject_ite, transmitByte_reject]
  have hfail : ∀ t, failStep s0 c (reject t) = reject (failStep s0 c t) := fun t => by
    simp only [failStep, reject_ite, failWrite_reject]
  simp only [streamStep, reject_ite, reject_state, hreceive, hexpire, hsend, hfail]

theorem encoderPhase_reject : encoderPhase (reject s) = reject (encoderPhase s) := by
  simp only [encoderPhase, reject_ite]
  rfl

/-- A rejection shows in IRQ_STATUS once the cycle commits, whatever else the cycle sets or clears
(60_exceptions.md R176). -/
theorem commit_reject : commit (reject s) = { commit s with irqStatus := (commit s).irqStatus ||| 0x40 } := by
  simp only [commit, reject, setIrq, IrqBit.mask, committedIrq, BitVec.or_assoc]

end

/-! ### A CMD access -/

/-- CMD is write-only (10_state.md R38). -/
theorem busValue_cmd (s : State) (w32 : Bool) : busValue s w32 0 = 0 := by
  cases w32 <;> rfl

/-- An access to CMD shows at the ports at most as `cancel_now`. -/
theorem outputs_cmdAccess {s : State} {c : CycleIn} (we w32 : Bool) (v : Word) (hen : c.busEn = false)
    (hnow : c.linkUp = true → cancelNow s (withAccess c we w32 0 v) = false) :
    outputs s (withAccess c we w32 0 v) = outputs s c := by
  have hrx : rxReady s (withAccess c we w32 0 v) = rxReady s c := by
    cases hup : c.linkUp with
    | false => simp [rxReady, withAccess, hup]
    | true =>
      rw [rxReady, hnow hup, rxReady, cancelNow_of_noWrite s (by rw [hen, Bool.false_and])]
      rfl
  have hbus : busRdata s (withAccess c we w32 0 v) = busRdata s c := by
    rw [busRdata_of_noRead s (by rw [hen, Bool.false_and] : (c.busEn && !c.busWe) = false), busRdata]
    exact (congrArg (ite _ · 0) (busValue_cmd s w32)).trans (ite_self 0)
  rw [outputs, hrx, hbus]
  rfl

/-- A read of CMD and a 1-byte write to it do nothing in phase 2. -/
theorem busPhase_cmdPartial (s0 : EngineState) {s : State} (hw : (s.inp.busWe && s.inp.busW32) = false)
    (haddr : s.inp.busAddr = 0) : busPhase s0 s = .next s := by
  cases hwe : s.inp.busWe with
  | false => exact busPhase_of_noWrite s0 (by rw [hwe, Bool.and_false])
  | true =>
    have hw32 : s.inp.busW32 = false := by rwa [hwe, Bool.true_and] at hw
    simp only [busPhase, hw32, haddr, Bool.false_and, Bool.false_eq_true, if_false]
    exact ite_self _

/-- A CMD access that is no 4-byte write leaves no trace but the record of the inputs. -/
theorem step_cmdPartial {s t : State} {c : CycleIn} {r : List CycleIn} {we w32 : Bool} (v : Word)
    (hen : c.busEn = false) (hw : (we && w32) = false) (ht : step (s.fed (c :: r)) = .next t) :
    step (s.fed (withAccess c we w32 0 v :: r)) = .next { t with inp := withAccess c we w32 0 v } := by
  have hout : outputs s (withAccess c we w32 0 v) = outputs s c :=
    outputs_cmdAccess we w32 v hen fun _ => by
      have hno : writesCmd (withAccess c we w32 0 v) = false := by simp [writesCmd, withAccess, hw]
      exact Bool.eq_false_iff.mpr fun h => by
        obtain ⟨hcancel, -⟩ := cancelNow_iff.mp h
        obtain ⟨hwrites, -⟩ := hostCommand_eq_some.mp hcancel
        exact nomatch hno.symm.trans hwrites
  obtain ⟨u, hc, hd⟩ := step_fed_lockstep (s := s) (c := c) (d := withAccess c we w32 0 v) r rfl
    (by rw [hout]; exact ⟨rfl, rfl, rfl, rfl, rfl, rfl, rfl, rfl, rfl⟩)
    (fun _ => busPhase_of_noWrite _ (by rw [withPorts_inp, hen, Bool.false_and]))
    (fun _ => busPhase_cmdPartial _ hw rfl)
  rw [hd, hout, ← Host.Outcome.next.inj (hc.symm.trans ht)]
  rfl

/-- The cycle's word is rejected: the matrix of 43_transfer_engine.md R147 does not accept it, or the link is down and
it is not POLL. -/
def Rejects (s : State) (c : CycleIn) (w : Word) : Prop :=
  (c.linkUp = true ∧ commandAccepted s w = false) ∨ (c.linkUp = false ∧ w ≠ 1)

/-- With the link down phase 1 has left the engine in IDLE, where POLL alone is accepted. -/
theorem commandAccepted_idle {s : State} {w : Word} (hs : s.state = .idle) (hw : w ≠ 1) :
    commandAccepted s w = false := by
  refine Bool.eq_false_iff.mpr fun h => ?_
  rcases commandAccepted_cases (c := commandCycle w) rfl h with ⟨hpoll, -⟩ | ⟨-, h, -⟩ | ⟨-, h, -⟩ | ⟨-, h | h⟩
  · obtain ⟨-, hdec⟩ := hostCommand_eq_some.mp hpoll
    exact hw (CodeWord.command.inj (encode_of_decode_command hdec)).symm
  all_goals exact nomatch hs.symm.trans h

/-- Phase 2 meets the word of such a cycle in a state that does not accept it. -/
theorem Rejects.notAccepted {s u : State} {c : CycleIn} {o : PortOut} {r : List CycleIn} {w : Word} (h : Rejects s c w)
    (hu : linkPhase (withPorts c o (sampled s r)) = withPorts c o u) : commandAccepted u w = false := by
  rcases h with ⟨hup, hno⟩ | ⟨hdown, hw⟩
  · rw [linkPhase_up hup] at hu
    have hsame : commandAccepted (withPorts c o u) w = commandAccepted s w :=
      (congrArg (commandAccepted · w) hu).symm
    exact hsame.trans hno
  · have hidle : (withPorts c o u).state = .idle := hu ▸ linkPhase_down_state hdown
    exact commandAccepted_idle hidle hw

/-- A rejected CANCEL does not hold `rx_ready` at 0. -/
theorem Rejects.cancelNow_eq_false {s : State} {c : CycleIn} {w : Word} (h : Rejects s c w) (hup : c.linkUp = true) :
    cancelNow s (withAccess c true true 0 w) = false := by
  have hno : commandAccepted s w = false := by
    rcases h with ⟨-, hno⟩ | ⟨hdown, -⟩
    · exact hno
    · exact nomatch hup.symm.trans hdown
  refine Bool.eq_false_iff.mpr fun hnow => ?_
  obtain ⟨hcancel, hs⟩ := cancelNow_iff.mp hnow
  obtain ⟨-, hdec⟩ := hostCommand_eq_some.mp hcancel
  have hdec : decode (.command w) = .ok .cancel := hdec
  simp [commandAccepted, hdec, hs] at hno

/-- A rejected word leaves CMDREJ and the record of the inputs, nothing else (43_transfer_engine.md R146). -/
theorem step_rejected {s t : State} {c : CycleIn} {r : List CycleIn} {w : Word} (hr : c.rst = false)
    (hen : c.busEn = false) (h : Rejects s c w) (ht : step (s.fed (c :: r)) = .next t) :
    step (s.fed (withAccess c true true 0 w :: r)) =
      .next { t with inp := withAccess c true true 0 w, irqStatus := t.irqStatus ||| 0x40 } := by
  have hup : (withAccess c true true 0 w).linkUp = c.linkUp := rfl
  have hdraw : (withAccess c true true 0 w).encDraw = c.encDraw := rfl
  have hout : outputs s (withAccess c true true 0 w) = outputs s c :=
    outputs_cmdAccess true true w hen h.cancelNow_eq_false
  obtain ⟨u, hu⟩ := linkPhase_answers c (outputs s c) (sampled s r)
  have hbus : busPhase s.state (withPorts (withAccess c true true 0 w) (outputs s c) u) =
      .next (withPorts (withAccess c true true 0 w) (outputs s c) (reject u)) :=
    commandWrite_of_notAccepted
      (s := withPorts (withAccess c true true 0 w) (outputs s c) u) (h.notAccepted hu)
  have hc := step_of_busPhase (v := u) (r := r) hr (by
    rw [hu]
    exact busPhase_of_noWrite _ (by rw [withPorts_inp, hen, Bool.false_and]))
  have hd := step_of_busPhase (s := s) (c := withAccess c true true 0 w) (v := reject u) (r := r) hr (by
    rw [hout, linkPhase_sameLink hup hu, hbus])
  rw [hd, hout, streamStep_reject, commit_encoderPhase_sameLink _ _ hup hdraw,
    ← Host.Outcome.next.inj (hc.symm.trans ht)]
  have hmark : ∀ x, commit (encoderPhase (withPorts c (outputs s c) (reject x))) =
      { commit (encoderPhase (withPorts c (outputs s c) x)) with
        irqStatus := (commit (encoderPhase (withPorts c (outputs s c) x))).irqStatus ||| 0x40 } := fun x =>
    (congrArg commit (encoderPhase_reject (withPorts c (outputs s c) x))).trans (commit_reject _)
  rw [hmark]
  rfl

/-- Settles O10: a rejected word joins CMDREJ to a cycle that goes on as without it; any other access to CMD that is no
4-byte write is lost. -/
theorem rejectedCommandSetsOnlyCmdrej : Obligations.RejectedCommandSetsOnlyCmdrej := by
  unfold Obligations.RejectedCommandSetsOnlyCmdrej
  intro s c r v hr hen
  obtain ⟨t, ht, -, -⟩ := step_answers (s.fed (c :: r))
  exact ⟨t, ht, fun hrej => step_rejected hr hen hrej ht, fun we w32 hw => step_cmdPartial v hen hw ht⟩

end Sys2Proof.Proofs

namespace Sys2Proof.Proofs

open Sys2Proof.Machine

/-! ### The class of an error code (60_exceptions.md R165) -/

/-- The tests of `errClass` as comparisons of the code's number, the form in which R165 gives its ranges. -/
theorem errClass_eq_of_toNat (code : BitVec 4) :
    errClass code =
      if code.toNat = 0 then 0
      else if code.toNat ≤ 4 then 1
      else if code.toNat ≤ 8 then 2
      else if code.toNat = 9 then 3
      else if code.toNat = 10 then 4
      else 0 := by
  simp only [errClass, BitVec.le_def, ← BitVec.toNat_inj]
  rfl

/-- Settles O45: each range of R165 passes the tests before its own and meets that one; the last range passes them all. -/
theorem errorClasses : Obligations.ErrorClasses := by
  unfold Obligations.ErrorClasses
  intro code
  rw [errClass_eq_of_toNat]
  refine ⟨fun noError => ?noError, fun low high => ?resynchronizable, fun low high => ?cycleFailed, fun linkFatal => ?linkFatal,
    fun cancelled => ?cancelled, fun unused => ?unused⟩
  case noError => exact if_pos noError
  case resynchronizable => rw [if_neg (by omega), if_pos high]
  case cycleFailed => rw [if_neg (by omega), if_neg (by omega), if_pos high]
  case linkFatal => rw [if_neg (by omega), if_neg (by omega), if_neg (by omega), if_pos linkFatal]
  case cancelled =>
    rw [if_neg (by omega), if_neg (by omega), if_neg (by omega), if_neg (by omega), if_pos cancelled]
  case unused =>
    rw [if_neg (by omega), if_neg (by omega), if_neg (by omega), if_neg (by omega), if_neg (by omega)]

end Sys2Proof.Proofs

namespace Sys2Proof.Proofs

open Sys2Proof.Machine Sys2Proof.Laws

/-! ### The reset cycle (70_reset_and_hazards.md R184) -/

/-- With `rst` asserted phases 1 to 5 do not run, so neither the bus access nor a byte reaches the state. -/
theorem step_of_rst {s : State} (h : (currentInput s).rst = true) : step s = .next (resetRegisters (beginCycle s)) :=
  if_pos h

/-- `rst` holds `rx_ready` low in every state (10_state.md R19). -/
theorem rxReady_of_rst (s : State) {c : CycleIn} (h : c.rst = true) : rxReady s c = false := by
  simp only [rxReady, h, Bool.not_true, Bool.false_and]

/-- `rst` holds `tx_valid` low in every state (10_state.md R19). -/
theorem txValid_of_rst (s : State) {c : CycleIn} (h : c.rst = true) : txValid s c = false := by
  simp only [txValid, h, Bool.not_true, Bool.false_and]

/-- Settles O50: the cycle samples its inputs and drives its outputs, and the reset then keeps of that state the buffers,
BUF_BYTES and what stands at the ports; neither byte port is ready. -/
theorem resetCycle : Obligations.ResetCycle := by
  unfold Obligations.ResetCycle
  intro s c r hrst
  refine ⟨?step, ?receive, ?transmit⟩
  case step =>
    rw [step_of_rst (s := s.fed (c :: r)) hrst, beginCycle_fed]
    rfl
  case receive => rw [outputs_rxReady, rxReady_of_rst s hrst]
  case transmit =>
    rw [outputs_tx, txValid_of_rst s hrst]
    rfl

end Sys2Proof.Proofs

namespace Sys2Proof.Proofs

open Sys2Proof.Machine Sys2Proof.Laws

/-! ### Decoding and encoding

A code space of a few words is a chain of tests; only the header joins fields. -/

/-- The header word of four field values. -/
def fieldsWord (dir : Byte) (height width : Half) (fmt : Byte) : BitVec 64 := 0x5354#16 ++ dir ++ height ++ width ++ fmt

section
variable (dir : Byte) (height width : Half) (fmt : Byte)

theorem fieldsWord_marker : (fieldsWord dir height width fmt).extractLsb' 48 16 = 0x5354 := by
  unfold fieldsWord; apply BitVec.eq_of_getLsbD_eq; intro i hi; grind

theorem fieldsWord_dir : (fieldsWord dir height width fmt).extractLsb' 40 8 = dir := by
  unfold fieldsWord; apply BitVec.eq_of_getLsbD_eq; intro i hi; grind

theorem fieldsWord_height : (fieldsWord dir height width fmt).extractLsb' 24 16 = height := by
  unfold fieldsWord; apply BitVec.eq_of_getLsbD_eq; intro i hi; grind

theorem fieldsWord_width : (fieldsWord dir height width fmt).extractLsb' 8 16 = width := by
  unfold fieldsWord; apply BitVec.eq_of_getLsbD_eq; intro i hi; grind

theorem fieldsWord_fmt : (fieldsWord dir height width fmt).extractLsb' 0 8 = fmt := by
  unfold fieldsWord; apply BitVec.eq_of_getLsbD_eq; intro i hi; grind

/-- A header word decodes to the fields it is made of (30_encoding.md R78). -/
theorem decode_fieldsWord : decode (.header (fieldsWord dir height width fmt)) = .ok (.hdr dir height width fmt) := by
  simp only [decode, decodeHeader, fieldsWord_marker, fieldsWord_dir, fieldsWord_height, fieldsWord_width,
    fieldsWord_fmt, if_true]

end

/-- A 64-bit word is made of its fields. -/
theorem fieldsWord_extract {w : BitVec 64} (h : w.extractLsb' 48 16 = 0x5354) :
    fieldsWord (w.extractLsb' 40 8) (w.extractLsb' 24 16) (w.extractLsb' 8 16) (w.extractLsb' 0 8) = w := by
  unfold fieldsWord
  rw [show 0x5354#16 = w.extractLsb' 48 16 from h.symm]
  apply BitVec.eq_of_getLsbD_eq
  intro i hi
  grind

/-- Settles O1: by the instruction; the words of the tables evaluate, and a header gives back its fields. -/
theorem decodeOfEncode : Obligations.DecodeOfEncode := by
  unfold Obligations.DecodeOfEncode
  intro i
  cases i with
  | hdr dir height width fmt => exact decode_fieldsWord dir height width fmt
  | _ => rfl

/-! Each code space from its word back: an instruction is answered for its own word alone (30_encoding.md R91). -/

theorem encode_of_decode_marker {w : BitVec 16} {i : Instr} (h : decode (.marker w) = .ok i) :
    encode i = .marker w := by
  simp only [decode, decodeMarker] at h
  split at h
  · next hw => rw [← Except.ok.inj h, hw]; rfl
  · exact nomatch h

theorem encode_of_decode_header {w : BitVec 64} {i : Instr} (h : decode (.header w) = .ok i) :
    encode i = .header w := by
  simp only [decode, decodeHeader] at h
  split at h
  · next hw =>
    rw [← Except.ok.inj h]
    exact congrArg CodeWord.header (fieldsWord_extract hw)
  · exact nomatch h

theorem encode_of_decode_direction {b : Byte} {i : Instr} (h : decode (.direction b) = .ok i) :
    encode i = .direction b := by
  simp only [decode, decodeDirection] at h
  split at h
  · next hb => rw [← Except.ok.inj h, hb]; rfl
  split at h
  · next hb => rw [← Except.ok.inj h, hb]; rfl
  · exact nomatch h

theorem encode_of_decode_format {b : Byte} {i : Instr} (h : decode (.format b) = .ok i) :
    encode i = .format b := by
  simp only [decode, decodeFormat] at h
  split at h
  · next hb => rw [← Except.ok.inj h, hb]; rfl
  split at h
  · next hb => rw [← Except.ok.inj h, hb]; rfl
  split at h
  · next hb => rw [← Except.ok.inj h, hb]; rfl
  · exact nomatch h

/-- Settles O2: by the kind of word. -/
theorem encodeOfDecode : Obligations.EncodeOfDecode := by
  unfold Obligations.EncodeOfDecode
  intro w i h
  cases w with
  | command w => exact encode_of_decode_command h
  | marker w => exact encode_of_decode_marker h
  | header w => exact encode_of_decode_header h
  | direction b => exact encode_of_decode_direction h
  | format b => exact encode_of_decode_format h

/-- Settles O3: the model's decoder on the six words. -/
theorem specWordsDecode : Obligations.SpecWordsDecode := ⟨rfl, rfl, rfl, rfl, rfl, rfl⟩

/-! Which words are reserved (30_encoding.md R90): the words of a code space are the first ones after 0. -/

theorem decode_command_reserved_iff (w : Word) :
    decode (.command w) = .error .reservedCommand ↔ ¬(1 ≤ w.toNat ∧ w.toNat ≤ 4) := by
  have hwords : (1 ≤ w.toNat ∧ w.toNat ≤ 4) ↔ w = 1 ∨ w = 2 ∨ w = 3 ∨ w = 4 := by bv_omega
  rw [hwords]
  constructor
  · rintro h (rfl | rfl | rfl | rfl) <;> exact nomatch h
  · intro h
    rcases decode_command_cases w with ⟨hw, -⟩ | ⟨hw, -⟩ | ⟨hw, -⟩ | ⟨hw, -⟩ | e
    case inr.inr.inr.inr => exact e
    all_goals exact absurd hw (by tauto)

theorem decode_direction_reserved_iff (b : Byte) :
    decode (.direction b) = .error .unknownDirection ↔ ¬(1 ≤ b.toNat ∧ b.toNat ≤ 2) := by
  have hwords : (1 ≤ b.toNat ∧ b.toNat ≤ 2) ↔ b = 1 ∨ b = 2 := by bv_omega
  rw [hwords]
  constructor
  · rintro h (rfl | rfl) <;> exact nomatch h
  · intro h
    obtain ⟨h1, h2⟩ := not_or.mp h
    exact (if_neg h1).trans (if_neg h2)

theorem decode_format_reserved_iff (b : Byte) :
    decode (.format b) = .error .unknownFormat ↔ ¬(1 ≤ b.toNat ∧ b.toNat ≤ 3) := by
  have hwords : (1 ≤ b.toNat ∧ b.toNat ≤ 3) ↔ b = 1 ∨ b = 2 ∨ b = 3 := by bv_omega
  rw [hwords]
  constructor
  · rintro h (rfl | rfl | rfl) <;> exact nomatch h
  · intro h
    obtain ⟨h1, h23⟩ := not_or.mp h
    obtain ⟨h2, h3⟩ := not_or.mp h23
    exact (if_neg h1).trans ((if_neg h2).trans (if_neg h3))

/-- Settles O4, a code space each. -/
theorem reservedCodesRejected : Obligations.ReservedCodesRejected :=
  ⟨decode_command_reserved_iff, decode_direction_reserved_iff, decode_format_reserved_iff⟩

end Sys2Proof.Proofs

namespace Sys2Proof.Proofs

open Sys2Proof.Machine Sys2Proof.Laws

/-! ### What a cycle can do

One inversion of the step: reset, link loss, an accepted command, or, in the STATE the cycle began in, the host access
followed by what the byte ports bring. -/

/-- A memory is another one, or a store inside its n bytes. -/
def StoredIn (n : Nat) (m m' : Memory) : Prop := m' = m ∨ ∃ i bs, m' = storeBytes n m i bs

/-- t is s after a bus access c that runs no command, in a cycle that began in s0: the source descriptor and SRC_BUF
change by a write outside WRITING only, and SRC_BUF by stores inside the buffer. -/
def Accessed (s0 : EngineState) (c : CycleIn) (s t : State) : Prop :=
  ∃ set clear enable hh w ch m,
    t = { s with
      irqSet := set, irqClear := clear, irqEnable := enable, srcH := hh, srcW := w, srcC := ch, srcBuf := m } ∧
    (s0 = .writing ∨ ¬(c.busEn = true ∧ c.busWe = true) →
      hh = s.srcH ∧ w = s.srcW ∧ ch = s.srcC ∧ m = s.srcBuf) ∧
    StoredIn s.bufBytes s.srcBuf m

/-- Where at most the set mask changes, nothing is accessed. -/
theorem accessed_of_irqSet (s0 : EngineState) (c : CycleIn) (s : State) (set : BitVec 7) :
    Accessed s0 c s { s with irqSet := set } :=
  ⟨set, s.irqClear, s.irqEnable, s.srcH, s.srcW, s.srcC, s.srcBuf, rfl, fun _ => ⟨rfl, rfl, rfl, rfl⟩, .inl rfl⟩

theorem hostAccess_accessed (s0 : EngineState) (c : CycleIn) (s : State) : Accessed s0 c s (hostAccess s0 c s) := by
  unfold hostAccess
  split
  · next hwrite =>
    split
    · exact accessed_of_irqSet s0 c s _
    · obtain ⟨clear, enable, hh, w, ch, m, e, hkeep, hstore⟩ := dataWrite_effect s0 c.busW32 c.busAddr c.busWdata s
      exact ⟨s.irqSet, clear, enable, hh, w, ch, m, e,
        fun h => hkeep (h.resolve_right fun hno => hno (Bool.and_eq_true_iff.mp hwrite)), hstore⟩
  · exact accessed_of_irqSet s0 c s _

/-- Phase 2 is the host access, unless the matrix of 43_transfer_engine.md R147 accepts the word. -/
theorem busPhase_eq_hostAccess_of_notAccepted (s0 : EngineState) {c : CycleIn} {o : PortOut} {s : State}
    (h : writesCmd c = true → commandAccepted s c.busWdata ≠ true) :
    busPhase s0 (withPorts c o s) = .next (withPorts c o (hostAccess s0 c s)) := by
  cases hwrite : c.busEn && c.busWe with
  | false => simp only [busPhase, hostAccess, withPorts_inp, hwrite, Bool.false_eq_true, if_false]
  | true =>
    cases hcmd : c.busW32 && c.busAddr == 0 with
    | false =>
      simp only [busPhase, hostAccess, withPorts_inp, hwrite, hcmd, Bool.false_eq_true, if_true, if_false,
        dataWrite_withPorts]
    | true =>
      have hno : commandAccepted (withPorts c o s) c.busWdata = false :=
        Bool.eq_false_iff.mpr (h (by rw [writesCmd, hwrite, Bool.true_and, hcmd]))
      simp only [busPhase, hostAccess, withPorts_inp, hwrite, hcmd, if_true, commandWrite_of_notAccepted hno]
      rfl

/-- What an accepted command makes of s (43_transfer_engine.md R142 to R145). -/
inductive Accepted (s : State) : State → Prop where
  | poll (hs : s.state = .idle) : Accepted s { s with errCode := .none, seenM0 := false, hdrIdx := 0, state := .scan }
  | read (hs : s.state = .hdrDecoded) (hdir : s.reqDir = 1)
      (hfits : decodedBytes s.reqH s.reqW s.reqFmt ≤ s.bufBytes) :
      Accepted s { s with xferCount := 0, state := .reading }
  | overflow (hs : s.state = .hdrDecoded) : Accepted s (enterError (.cycleFail .bufOverflow) s)
  | write (hs : s.state = .hdrDecoded) (hdir : s.reqDir = 2) (hsrc : sourceLegal s = true) :
      Accepted s { s with xferCount := 0, encRdy := false, state := .writing }
  | cancel (hs : s.state = .scan ∨ s.state = .hdrDecoded) : Accepted s (enterError .cancelled s)

/-- With the link up phase 2 runs the accepted command. -/
theorem busPhase_accepted (s0 : EngineState) {c : CycleIn} (o : PortOut) {s : State} (hup : c.linkUp = true)
    (hw : writesCmd c = true) (h : commandAccepted s c.busWdata = true) :
    ∃ t, Accepted s t ∧ busPhase s0 (withPorts c o s) = .next (withPorts c o t) := by
  rcases commandAccepted_cases hw h with ⟨hcmd, hs⟩ | ⟨hcmd, hs, hdir⟩ | ⟨hcmd, hs, hdir, hsrc⟩ | ⟨hcmd, hs⟩ <;>
    have hbus := busPhase_of_command s0 (s := withPorts c o s) hcmd
  · obtain ⟨haccept, -, -⟩ := pollResult (withPorts c o s)
    exact ⟨_, .poll hs, hbus.trans (haccept hs hup)⟩
  · obtain ⟨hstarts, hfails, -⟩ := readResult (withPorts c o s)
    by_cases hfits : decodedBytes s.reqH s.reqW s.reqFmt ≤ s.bufBytes
    · exact ⟨_, .read hs hdir hfits, hbus.trans (hstarts hs hdir hfits)⟩
    · exact ⟨_, .overflow hs, hbus.trans (hfails hs hdir (Nat.lt_of_not_le hfits))⟩
  · exact ⟨_, .write hs hdir hsrc, hbus.trans (exec_write_accepted (s := withPorts c o s) hs hdir hsrc)⟩
  · obtain ⟨haccept, -, -⟩ := cancelResult (withPorts c o s)
    exact ⟨_, .cancel hs, hbus.trans (haccept hs)⟩

/-- An accepted command changes STATE. -/
theorem Accepted.state_ne {s t : State} (h : Accepted s t) : t.state ≠ s.state := by
  cases h with
  | poll hs => rw [hs]; nofun
  | read hs => rw [hs]; nofun
  | overflow hs => rw [hs]; nofun
  | write hs => rw [hs]; nofun
  | cancel hs => rcases hs with hs | hs <;> rw [hs] <;> nofun

/-- Phase 3a of READING for a Request of any format, format 0 included. -/
def takeRead (c : CycleIn) (s : State) : State := if c.rxValid = true then receiveStep c.rxData s else s

theorem takeRead_of_format {c : CycleIn} {s : State} (hs : s.state = .reading) (hf : s.reqFmt ≠ 0) :
    takeRead c s = takePayload c s := by
  simp only [takeRead, takePayload, receiveStep, hs, hf, ne_eq, not_false_eq_true, and_self, if_true]

/-- A payload byte of format 0 is dropped. -/
theorem takeRead_of_noFormat {c : CycleIn} {s : State} (hs : s.state = .reading) (hf : s.reqFmt = 0) :
    takeRead c s = s := by
  simp only [takeRead, receiveStep, plainByte, hs, hf, ne_eq, not_true_eq_false, and_false, if_false, ite_self]

/-- The host access of a cycle, on what the begin of the cycle makes of s. -/
def accessed (s : State) (c : CycleIn) (r : List CycleIn) : State := hostAccess s.state c (sampled s r)

theorem accessed_state (s : State) (c : CycleIn) (r : List CycleIn) : (accessed s c r).state = s.state :=
  (hostAccess_sampled s.state c s r).1

theorem accessed_accessed (s : State) (c : CycleIn) (r : List CycleIn) :
    Accessed s.state c (sampled s r) (accessed s c r) := hostAccess_accessed _ _ _

/-- The states a cycle with the inputs c can lead to from s. -/
inductive CycleResult (s : State) (c : CycleIn) (r : List CycleIn) : State → Prop where
  | reset (hr : c.rst = true) : CycleResult s c r (resetRegisters (withPorts c (outputs s c) (sampled s r)))
  | linkLost {u : State} (hr : c.rst = false) (hdown : c.linkUp = false)
      (hu : Accessed s.state c (enterError .linkFatal (sampled s r)) u) :
      CycleResult s c r (commit (withPorts c (outputs s c) u))
  | command {u : State} (hc : linked c = true) (hw : writesCmd c = true)
      (hacc : commandAccepted s c.busWdata = true) (hu : Accepted (sampled s r) u) :
      CycleResult s c r (commit (encoderPhase (withPorts c (outputs s c) u)))
  | quiet (hr : c.rst = false) (hs : s.state = .idle ∨ s.state = .hdrDecoded) :
      CycleResult s c r (commit (withPorts c (outputs s c) (accessed s c r)))
  | scan (hc : undisturbed c = true) (hs : s.state = .scan) :
      CycleResult s c r (commit (withPorts c (outputs s c) (takeOffered c (accessed s c r))))
  | hdr (hc : linked c = true) (hs : s.state = .hdr) :
      CycleResult s c r
        (commit (withPorts c (outputs s c) (timeOut .hdr s.hdrIdx c (takeOffered c (accessed s c r)))))
  | reading (hc : linked c = true) (hs : s.state = .reading) :
      CycleResult s c r
        (commit (withPorts c (outputs s c) (timeOut .reading s.hdrIdx c (takeRead c (accessed s c r)))))
  | writing (hc : linked c = true) (hs : s.state = .writing) :
      CycleResult s c r
        (commit (encoderPhase (withPorts c (outputs s c) (failWrite c (sendOffered c (accessed s c r))))))

/-- The cycle c leads to one of these states. -/
def Leads (s : State) (c : CycleIn) (r : List CycleIn) : Prop :=
  ∃ t, step (s.fed (c :: r)) = .next t ∧ CycleResult s c r t

theorem tx_none_of_notWriting {s : State} (c : CycleIn) (h : s.state ≠ .writing) : (outputs s c).tx = none :=
  if_neg fun hv => h (txValid_iff.mp hv).2.2.1

/-- Where phase 2 runs no command in IDLE or HDR_DECODED, no byte moves. -/
theorem leads_quiet {s : State} {c : CycleIn} (r : List CycleIn) (hr : c.rst = false)
    (hs : s.state = .idle ∨ s.state = .hdrDecoded)
    (hlink : linkPhase (withPorts c (outputs s c) (sampled s r)) = withPorts c (outputs s c) (sampled s r))
    (hno : writesCmd c = true → commandAccepted s c.busWdata ≠ true) : Leads s c r := by
  have hw : s.state ≠ .writing := by rcases hs with hs | hs <;> rw [hs] <;> nofun
  have hrx : (outputs s c).rxReady = false := by
    rcases hs with hs | hs <;> simp [rxReady, hs]
  have hbus : busPhase s.state (linkPhase (withPorts c (outputs s c) (sampled s r))) =
      .next (withPorts c (outputs s c) (accessed s c r)) := by
    rw [hlink]
    exact busPhase_eq_hostAccess_of_notAccepted (s := sampled s r) _ hno
  have hstep := step_of_busPhase hr hbus
  rw [streamStep_quiet c _ s.hdrIdx (by tauto) hrx (tx_none_of_notWriting c hw),
    encoderPhase_of_notWriting (by rw [withPorts_state, accessed_state]; exact hw)] at hstep
  exact ⟨_, hstep, .quiet hr hs⟩

/-- Phase 3 does nothing after a phase 1 or 2 that ends in IDLE with the link down. -/
theorem streamStep_linkDown {s u : State} {c : CycleIn} (hdown : c.linkUp = false) (hu : u.state = .idle) :
    streamStep s.state s.hdrIdx c (outputs s c) u = u := by
  by_cases hs : s.state = .idle
  · exact streamStep_quiet c u _ (.inl hs) (by simp [rxReady, hdown]) (tx_none_of_notWriting c (by rw [hs]; nofun))
  · exact streamStep_of_changed _ c _ fun h => hs (h.symm.trans hu)

/-- Link loss, in phase 1 or by a POLL. -/
theorem leads_linkLost {s u : State} {c : CycleIn} {r : List CycleIn} (hr : c.rst = false) (hdown : c.linkUp = false)
    (hu : Accessed s.state c (enterError .linkFatal (sampled s r)) u)
    (hbus : busPhase s.state (linkPhase (withPorts c (outputs s c) (sampled s r))) =
      .next (withPorts c (outputs s c) u)) : Leads s c r := by
  have hidle : u.state = .idle := by
    obtain ⟨_, _, _, _, _, _, _, rfl, -⟩ := hu
    rfl
  have hstep := step_of_busPhase hr hbus
  rw [streamStep_linkDown hdown hidle,
    encoderPhase_of_notWriting (by rw [withPorts_state, hidle]; nofun)] at hstep
  exact ⟨_, hstep, .linkLost hr hdown hu⟩

/-- In IDLE with the link down POLL is the one command that does something. -/
theorem leads_linkDown {s : State} {c : CycleIn} (r : List CycleIn) (hr : c.rst = false) (hdown : c.linkUp = false) :
    Leads s c r := by
  have hnotAccepted : ∀ u : State, u.state = .idle → hostCommand c ≠ some .poll →
      writesCmd c = true → commandAccepted u c.busWdata ≠ true := by
    intro u hu hpoll hw hacc
    rcases commandAccepted_cases hw hacc with ⟨h, -⟩ | ⟨-, h, -⟩ | ⟨-, h, -⟩ | ⟨-, h | h⟩
    · exact hpoll h
    all_goals exact nomatch hu.symm.trans h
  have hpollFatal : ∀ u : State, u.state = .idle → hostCommand c = some .poll →
      busPhase s.state (withPorts c (outputs s c) u) = .next (withPorts c (outputs s c) (enterError .linkFatal u)) := by
    intro u hu hpoll
    obtain ⟨-, hfatal, -⟩ := pollResult (withPorts c (outputs s c) u)
    exact (busPhase_of_command _ hpoll).trans (hfatal hu hdown)
  rcases linkPhase_cases (withPorts c (outputs s c) (sampled s r)) with ⟨-, -, e⟩ | ⟨hup | ⟨-, hs⟩, e⟩
  · rw [enterError_withPorts] at e
    by_cases hpoll : hostCommand c = some .poll
    · exact leads_linkLost hr hdown (accessed_of_irqSet _ _ _ _) (by rw [e]; exact hpollFatal _ rfl hpoll)
    · exact leads_linkLost hr hdown (hostAccess_accessed _ _ _)
        (by rw [e]; exact busPhase_eq_hostAccess_of_notAccepted _ (hnotAccepted _ rfl hpoll))
  · exact nomatch hdown.symm.trans hup
  · by_cases hpoll : hostCommand c = some .poll
    · exact leads_linkLost hr hdown (accessed_of_irqSet _ _ _ _) (by rw [e]; exact hpollFatal _ hs hpoll)
    · exact leads_quiet r hr (.inl hs) e (hnotAccepted s hs hpoll)

/-- An accepted command ends the cycle: STATE has changed, so phase 3 does nothing. -/
theorem leads_command {s : State} {c : CycleIn} (r : List CycleIn) (hc : linked c = true) (hw : writesCmd c = true)
    (h : commandAccepted s c.busWdata = true) : Leads s c r := by
  obtain ⟨hup, hr⟩ := linked_iff.mp hc
  obtain ⟨u, hu, hbus⟩ := busPhase_accepted s.state (outputs s c) (s := sampled s r) hup hw h
  have hstep := step_of_busPhase hr ((congrArg _ (linkPhase_up hup)).trans hbus)
  rw [streamStep_of_changed (s0 := s.state) _ _ _ hu.state_ne] at hstep
  exact ⟨_, hstep, .command hc hw h hu⟩

/-- READING of a Request of any format. -/
theorem leads_reading {s : State} {c : CycleIn} (r : List CycleIn) (hc : linked c = true) (hs : s.state = .reading) :
    Leads s c r := by
  obtain ⟨hup, hr⟩ := linked_iff.mp hc
  have hu : (accessed s c r).state = .reading := (accessed_state s c r).trans hs
  have hrx : (outputs s c).rxReady = true := rxReady_of_reading hs hc
  have hbus : busPhase s.state (linkPhase (withPorts c (outputs s c) (sampled s r))) =
      .next (withPorts c (outputs s c) (accessed s c r)) := by
    rw [linkPhase_up hup, accessed, hs]
    exact busPhase_reading _ _ hs
  have hreceive : receiveOffered c (outputs s c) (accessed s c r) = takeRead c (accessed s c r) := by
    rw [receiveOffered, hrx, Bool.and_true, takeRead]
  have hexpire : ∀ u, expire .reading s.hdrIdx c (outputs s c) u = timeOut .reading s.hdrIdx c u := fun u => by
    rw [expire, hrx, Bool.and_true, timeOut]
  have hnotWriting : (timeOut .reading s.hdrIdx c (takeRead c (accessed s c r))).state ≠ .writing := by
    by_cases hf : (accessed s c r).reqFmt = 0
    · rw [takeRead_of_noFormat hu hf, timeOut]
      split
      · nofun
      · rw [hu]; nofun
    · rw [takeRead_of_format hu hf]
      exact timeOut_takePayload_notWriting _ c hu
  refine ⟨_, ?_, .reading hc hs⟩
  rw [step_of_busPhase hr hbus, streamStep_of_same _ _ _ (accessed_state s c r), hreceive, hs, hexpire,
    sendTaken_of_none _ _ (tx_none_of_notWriting c (by rw [hs]; nofun)),
    failStep_of_notWriting (s0 := .reading) _ _ nofun, encoderPhase_of_notWriting (by exact hnotWriting)]

/-- Every cycle leads to one of these states. -/
theorem leads (s : State) (c : CycleIn) (r : List CycleIn) : Leads s c r := by
  by_cases hr : c.rst = true
  · exact ⟨_, if_pos hr, .reset hr⟩
  have hr : c.rst = false := Bool.eq_false_iff.mpr hr
  by_cases hdown : c.linkUp = false
  · exact leads_linkDown r hr hdown
  have hup : c.linkUp = true := Bool.not_eq_false _ ▸ hdown
  have hc : linked c = true := linked_iff.mpr ⟨hup, hr⟩
  by_cases hcmd : writesCmd c = true ∧ commandAccepted s c.busWdata = true
  · exact leads_command r hc hcmd.1 hcmd.2
  have hno : writesCmd c = true → commandAccepted s c.busWdata ≠ true := fun hw hacc => hcmd ⟨hw, hacc⟩
  cases hs : s.state with
  | idle => exact leads_quiet r hr (.inl hs) (linkPhase_up hup) hno
  | hdrDecoded => exact leads_quiet r hr (.inr hs) (linkPhase_up hup) hno
  | scan =>
    have hcancel : hostCommand c ≠ some .cancel := by
      intro h
      obtain ⟨hw, hdec⟩ := hostCommand_eq_some.mp h
      exact hno hw (by rw [commandAccepted, hdec, hs])
    have hu : undisturbed c = true := undisturbed_iff.mpr ⟨hup, hr, hcancel⟩
    have hstep := step_taking r (.inl hs) (rxReady_of_undisturbed (.inl hs) hu)
    rw [hs, timeOut_scan] at hstep
    exact ⟨_, hstep, .scan hu hs⟩
  | hdr =>
    have hstep := step_taking r (.inr hs) (rxReady_of_linked hs hc)
    rw [hs] at hstep
    exact ⟨_, hstep, .hdr hc hs⟩
  | reading => exact leads_reading r hc hs
  | writing =>
    have hstep := step_writing r hs hc
    rw [sent, ← hs] at hstep
    exact ⟨_, hstep, .writing hc hs⟩

/-- The inversion of the step. -/
theorem cycleResult_of_step {s t : State} (h : step s = .next t) : CycleResult s (currentInput s) s.inputs.tail t := by
  obtain ⟨u, hu, hresult⟩ := leads s (currentInput s) s.inputs.tail
  rw [step_fed_currentInput, h] at hu
  rwa [Host.Outcome.next.inj hu]

theorem cycleResult_of_step_fed {s t : State} {c : CycleIn} {r : List CycleIn} (h : step (s.fed (c :: r)) = .next t) :
    CycleResult s c r t := by
  obtain ⟨u, hu, hresult⟩ := leads s c r
  rw [h] at hu
  rwa [Host.Outcome.next.inj hu]

/-- Settles O52: the inversion names the next state. -/
theorem everyStepAnswersNext : Obligations.EveryStepAnswersNext := by
  unfold Obligations.EveryStepAnswersNext
  intro s
  obtain ⟨t, ht, -⟩ := leads s (currentInput s) s.inputs.tail
  exact ⟨t, ht⟩

end Sys2Proof.Proofs

namespace Sys2Proof.Proofs

open Sys2Proof.Machine Sys2Proof.Laws

/-! ### What the byte ports bring, STATE by STATE

Each lemma names the fields a phase 3 that began in one STATE can change, and what it makes of them. -/

theorem takeOffered_scan_cases (c : CycleIn) {u : State} (hs : u.state = .scan) :
    (c.rxValid = false ∧ takeOffered c u = u) ∨
    (c.rxValid = true ∧ u.seenM0 = true ∧ c.rxData = 0x54 ∧
      takeOffered c u = { u with scanCount := u.scanCount + 1, state := .hdr, hdrIdx := 0, seenM0 := false }) ∨
    (c.rxValid = true ∧ ¬(u.seenM0 = true ∧ c.rxData = 0x54) ∧
      takeOffered c u = { u with scanCount := u.scanCount + 1, seenM0 := c.rxData == 0x53 }) := by
  cases hv : c.rxValid with
  | false => exact .inl ⟨rfl, takeOffered_of_idle hv u⟩
  | true =>
    rw [takeOffered_of_valid hv, plainByte_scan _ hs]
    rcases scanByte_cases c.rxData u with ⟨hm, hb, e⟩ | ⟨hno, e⟩
    · exact .inr (.inl ⟨rfl, hm, hb, e⟩)
    · exact .inr (.inr ⟨rfl, hno, e⟩)

/-- The codes of header-level errors (60_exceptions.md R165, class 1). -/
def IsHeaderError (code : ErrCode) : Prop :=
  code = .incompleteHeader ∨ code = .unknownDirection ∨ code = .unknownFormat ∨ code = .zeroDimension

/-- An ill-formed header resynchronizes with a header-level code. -/
theorem headerComplete_illFormed {dir : Byte} {height width : Half} {fmt : Byte}
    (hbad : (Instr.hdr dir height width fmt).wellFormed = false) (s : State) :
    ∃ code, IsHeaderError code ∧ headerComplete dir height width fmt s = enterError (.resync code) s := by
  by_cases hd : dir ≠ 1 ∧ dir ≠ 2
  · exact ⟨_, .inr (.inl rfl), headerComplete_badDirection hd s⟩
  have hd : dir = 1 ∨ dir = 2 := by tauto
  by_cases hz : height = 0 ∨ width = 0
  · exact ⟨_, .inr (.inr (.inr rfl)), headerComplete_zeroDimension hd hz s⟩
  have hz : height ≠ 0 ∧ width ≠ 0 := not_or.mp hz
  by_cases hf : fmt ≠ 1 ∧ fmt ≠ 2 ∧ fmt ≠ 3
  · exact ⟨_, .inr (.inr (.inl rfl)), headerComplete_badFormat hd hz hf s⟩
  · exact absurd ((wellFormed_hdr dir height width fmt).mpr ⟨⟨hd, hz⟩, by tauto⟩) (Bool.eq_false_iff.mp hbad)

/-- The Request fields a header writes. -/
def withRequest (raw : HdrRaw) (dir : Byte) (height width : Half) (fmt : Byte) (s : State) : State :=
  { s with
    hdrRaw := raw, hdrIdx := 0, reqDir := dir.setWidth 2, reqH := height, reqW := width, reqFmt := fmt.setWidth 2 }

/-- What a cycle of HDR makes of u: it goes on, resynchronizes, or completes a well-formed header. -/
inductive HdrOutcome (u : State) : State → Prop where
  | goesOn (raw : HdrRaw) (idx : Fin 6) : HdrOutcome u { u with hdrRaw := raw, hdrIdx := idx }
  | resync (raw : HdrRaw) {code : ErrCode} (hcode : IsHeaderError code) :
      HdrOutcome u (enterError (.resync code) { u with hdrRaw := raw })
  | overflow (raw : HdrRaw) (dir : Byte) (height width : Half) (fmt : Byte) :
      HdrOutcome u
        (enterError (.cycleFail .sizeOverflow) { withRequest raw dir height width fmt u with payloadSize := 0 })
  | accepted (raw : HdrRaw) {dir : Byte} {height width : Half} {fmt : Byte}
      (hwf : (Instr.hdr dir height width fmt).wellFormed = true)
      (hfits : payloadBytes height width (fmt.setWidth 2) ≤ 4294967295) :
      HdrOutcome u
        (acceptHeader (payloadBytes height width (fmt.setWidth 2)) (withRequest raw dir height width fmt u))

theorem headerComplete_outcome (dir : Byte) (height width : Half) (fmt : Byte) (raw : HdrRaw) (u : State) :
    HdrOutcome u (headerComplete dir height width fmt { u with hdrRaw := raw, hdrIdx := 0 }) := by
  rcases headerComplete_cases dir height width fmt { u with hdrRaw := raw, hdrIdx := 0 } with
    ⟨_, hbad, -⟩ | ⟨-, -, e⟩ | ⟨hwf, hfits, e⟩
  · obtain ⟨code, hcode, e⟩ := headerComplete_illFormed hbad { u with hdrRaw := raw, hdrIdx := 0 }
    rw [e]
    exact .resync raw hcode
  · rw [e]
    exact .overflow raw dir height width fmt
  · rw [e]
    exact .accepted raw hwf hfits

theorem timeOut_of_changed {s0 : EngineState} (idx0 : Fin 6) (c : CycleIn) {s : State} (hs : s.state ≠ s0) :
    timeOut s0 idx0 c s = s :=
  if_neg fun ⟨_, h⟩ => hs h

/-- The time-out of HDR while the header goes on. -/
theorem timeOut_hdr_outcome (idx0 : Fin 6) (c : CycleIn) (u : State) (raw : HdrRaw) (idx : Fin 6) :
    HdrOutcome u (timeOut .hdr idx0 c { u with hdrRaw := raw, hdrIdx := idx }) := by
  unfold timeOut
  split
  · rcases timeoutStep_cases .hdr idx0 c.rxValid { u with hdrRaw := raw, hdrIdx := idx } with
      ⟨-, -, e⟩ | ⟨h, -⟩ | ⟨-, e⟩
    · rw [e]
      exact .resync raw (.inl rfl)
    · exact nomatch h
    · rw [e]
      exact .goesOn raw idx
  · exact .goesOn raw idx

theorem headerTarget_ne_hdr (dir : Byte) (height width : Half) (fmt : Byte) :
    headerTarget dir height width fmt ≠ .hdr := by
  unfold headerTarget
  split
  · split <;> nofun
  · nofun

theorem hdr_outcome (idx0 : Fin 6) (c : CycleIn) {u : State} (hs : u.state = .hdr) :
    HdrOutcome u (timeOut .hdr idx0 c (takeOffered c u)) := by
  cases hv : c.rxValid with
  | false =>
    rw [takeOffered_of_idle hv]
    exact timeOut_hdr_outcome idx0 c u u.hdrRaw u.hdrIdx
  | true =>
    rw [takeOffered_of_valid hv, plainByte_hdr _ hs]
    by_cases h5 : u.hdrIdx = 5
    · rw [hdrByte_last _ _ h5, timeOut_of_changed]
      · exact headerComplete_outcome _ _ _ _ _ u
      · rw [headerComplete_state]
        exact headerTarget_ne_hdr _ _ _ _
    · rw [hdrByte_field _ _ h5]
      exact timeOut_hdr_outcome idx0 c u _ _

/-- u after a payload byte has been written and the count is n. -/
def withPayload (m : Memory) (held : Byte) (n : Word) (u : State) : State :=
  { u with dstBuf := m, pend := held, xferCount := n }

/-- What a cycle of READING makes of u: it goes on, completes the decode, or fails for the time-out. -/
inductive ReadingOutcome (u : State) : State → Prop where
  | goesOn {m : Memory} (held : Byte) {n : Word} (hm : StoredIn u.bufBytes u.dstBuf m)
      (hn : n = u.xferCount ∨ n = u.xferCount + 1 ∧ n ≠ u.payloadSize) :
      ReadingOutcome u (withPayload m held n u)
  | completes {m : Memory} (held : Byte) {n : Word} (hm : StoredIn u.bufBytes u.dstBuf m)
      (hn : n = u.xferCount + 1 ∧ n = u.payloadSize) :
      ReadingOutcome u (decodeComplete (withPayload m held n u))
  | fails {m : Memory} (held : Byte) (n : Word) (hm : StoredIn u.bufBytes u.dstBuf m) :
      ReadingOutcome u (enterError (.cycleFail .shortRead) (withPayload m held n u))

theorem payloadByte_stores (b : Byte) (u : State) :
    ∃ m held, StoredIn u.bufBytes u.dstBuf m ∧ payloadByte b u = decodeAdvance (withPayload m held u.xferCount u) := by
  unfold payloadByte
  split
  · rcases readPackedByte_cases b u with ⟨-, e⟩ | ⟨-, e⟩
    · exact ⟨u.dstBuf, b, .inl rfl, e⟩
    · exact ⟨_, u.pend, .inr ⟨_, _, rfl⟩, e⟩
  · exact ⟨_, u.pend, .inr ⟨_, _, rfl⟩, rfl⟩

/-- The time-out of READING while the decode goes on. -/
theorem timeOut_reading_outcome (idx0 : Fin 6) (c : CycleIn) {u : State} {m : Memory} (held : Byte) {n : Word}
    (hm : StoredIn u.bufBytes u.dstBuf m) (hn : n = u.xferCount ∨ n = u.xferCount + 1 ∧ n ≠ u.payloadSize) :
    ReadingOutcome u (timeOut .reading idx0 c (withPayload m held n u)) := by
  unfold timeOut
  split
  · exact .fails held n hm
  · exact .goesOn held hm hn

theorem reading_outcome (idx0 : Fin 6) (c : CycleIn) {u : State} (hs : u.state = .reading) :
    ReadingOutcome u (timeOut .reading idx0 c (takeRead c u)) := by
  have hidle : ReadingOutcome u (timeOut .reading idx0 c u) :=
    timeOut_reading_outcome idx0 c u.pend (.inl rfl) (.inl rfl)
  by_cases hf : u.reqFmt = 0
  · rwa [takeRead_of_noFormat hs hf]
  rw [takeRead_of_format hs hf]
  cases hv : c.rxValid with
  | false => rwa [takePayload_of_idle hv]
  | true =>
    obtain ⟨m, held, hm, e⟩ := payloadByte_stores c.rxData u
    rw [takePayload_of_valid hv, e]
    rcases decodeAdvance_cases (withPayload m held u.xferCount u) with ⟨hlast, e⟩ | ⟨hmore, e⟩ <;> rw [e]
    · rw [timeOut_of_changed (s0 := .reading) (s := decodeComplete _) _ _ nofun]
      exact .completes held hm ⟨rfl, hlast⟩
    · exact timeOut_reading_outcome idx0 c held hm (.inr ⟨rfl, hmore⟩)

/-- u after the sink has taken the byte it is offered. -/
def withSent (u : State) : State :=
  { u with encRdy := false, xferCount := u.xferCount + 1, txLog := u.txLog ++ [encByte u u.xferCount.toNat] }

theorem sendOffered_cases (c : CycleIn) (u : State) :
    (¬(u.encRdy = true ∧ c.txReady = true) ∧ sendOffered c u = u) ∨
    ((u.encRdy = true ∧ c.txReady = true) ∧ u.xferCount + 1 = u.payloadSize ∧
      sendOffered c u = encodeComplete (withSent u)) ∨
    ((u.encRdy = true ∧ c.txReady = true) ∧ u.xferCount + 1 ≠ u.payloadSize ∧ sendOffered c u = withSent u) := by
  by_cases h : u.encRdy = true ∧ c.txReady = true
  · rcases transmitByte_cases u with ⟨hlast, e⟩ | ⟨hmore, e⟩
    · exact .inr (.inl ⟨h, hlast, (if_pos h).trans e⟩)
    · exact .inr (.inr ⟨h, hmore, (if_pos h).trans e⟩)
  · exact .inl ⟨h, if_neg h⟩

/-- What a cycle of WRITING makes of u before the draw: nothing moves, a byte is sent, the encode completes, or the write
fails. -/
inductive WritingOutcome (c : CycleIn) (u : State) : State → Prop where
  | holds (hno : ¬(u.encRdy = true ∧ c.txReady = true)) : WritingOutcome c u u
  | sends (hsent : u.encRdy = true ∧ c.txReady = true) (hmore : u.xferCount + 1 ≠ u.payloadSize) :
      WritingOutcome c u (withSent u)
  | completes (hsent : u.encRdy = true ∧ c.txReady = true) (hlast : u.xferCount + 1 = u.payloadSize) :
      WritingOutcome c u (encodeComplete (withSent u))
  | fails (hno : ¬(u.encRdy = true ∧ c.txReady = true)) :
      WritingOutcome c u (enterError (.cycleFail .shortWrite) u)
  | sendsAndFails (hsent : u.encRdy = true ∧ c.txReady = true) :
      WritingOutcome c u (enterError (.cycleFail .shortWrite) (withSent u))

theorem writing_outcome (c : CycleIn) (u : State) : WritingOutcome c u (failWrite c (sendOffered c u)) := by
  rcases sendOffered_cases c u with ⟨hno, e⟩ | ⟨hsent, hlast, e⟩ | ⟨hsent, hmore, e⟩ <;> rw [e]
  · unfold failWrite
    split
    · exact .fails hno
    · exact .holds hno
  · rw [failWrite_of_done c (s := encodeComplete _) nofun]
    exact .completes hsent hlast
  · unfold failWrite
    split
    · exact .sendsAndFails hsent
    · exact .sends hsent hmore

end Sys2Proof.Proofs

namespace Sys2Proof.Proofs

open Sys2Proof.Machine Sys2Proof.Laws

/-! ### The invariants along a cycle

A state met inside a cycle is held to the invariants as it would be committed, `Invariant (commit u)`: its masks are not 0
yet. -/

theorem StoredIn.wf {n : Nat} {m m' : Memory} (h : StoredIn n m m') (hm : Memory.wf m = true) :
    Memory.wf m' = true := by
  rcases h with rfl | ⟨i, bs, rfl⟩
  · exact hm
  · exact storeBytes_wf bs hm

theorem StoredIn.below {n : Nat} {m m' : Memory} (h : StoredIn n m m') (hm : Memory.below n m = true) :
    Memory.below n m' = true := by
  rcases h with rfl | ⟨i, bs, rfl⟩
  · exact hm
  · exact storeBytes_below bs hm

/-- The part of the invariants that speaks of buffers, of n bytes each. -/
structure BuffersOk (n : Nat) (src dst : Memory) : Prop where
  range : 1 ≤ n ∧ n ≤ 16777216
  wf : Memory.wf src = true ∧ Memory.wf dst = true
  below : Memory.below n src = true ∧ Memory.below n dst = true

theorem buffersOk_of_invariant {s : State} (h : Invariant s) : BuffersOk s.bufBytes s.srcBuf s.dstBuf :=
  ⟨h.bufBytes_range, h.buffers_wf, h.buffers_below⟩

theorem BuffersOk.storeDst {n : Nat} {src dst m : Memory} (h : BuffersOk n src dst) (hm : StoredIn n dst m) :
    BuffersOk n src m :=
  ⟨h.range, ⟨h.wf.1, hm.wf h.wf.2⟩, ⟨h.below.1, hm.below h.below.2⟩⟩

theorem live_of_transferring {e : EngineState} (h : e.transferring = true) : e.live = true := by
  revert h
  cases e <;> decide

/-- In IDLE, SCAN and HDR, where no Request is live, the invariants ask this much. -/
theorem invariant_of_notLive {t : State} (hs : t.state.live = false) (hvalid : t.reqValid = false)
    (hidx : t.state ≠ .hdr → t.hdrIdx = 0) (hseen : t.state ≠ .scan → t.seenM0 = false) (hrdy : t.encRdy = false)
    (hmasks : t.irqSet = 0 ∧ t.irqClear = 0) (hbuf : BuffersOk t.bufBytes t.srcBuf t.dstBuf) : Invariant t := by
  have hnot : t.state.live ≠ true := Bool.eq_false_iff.mp hs
  have hreading : t.state ≠ .reading := fun h => hnot (by rw [h]; rfl)
  have hwriting : t.state ≠ .writing := fun h => hnot (by rw [h]; rfl)
  have htransfer : t.state.transferring ≠ true := fun h => hnot (live_of_transferring h)
  exact {
    valid_iff_live := hvalid.trans hs.symm
    hdrIdx_zero := hidx
    seenM0_clear := hseen
    transfer_open := fun h => absurd h htransfer
    payload_sized := fun h => absurd h hnot
    payload_pos := fun h => absurd h hnot
    direction_legal := fun h => absurd h hnot
    format_legal := fun h => absurd h hnot
    reading_direction := fun h => absurd h hreading
    writing_direction := fun h => absurd h hwriting
    encRdy_clear := fun _ => hrdy
    reading_fits := fun h => absurd h hreading
    writing_source := fun h => absurd h hwriting
    masks_clear := hmasks
    bufBytes_range := hbuf.range
    buffers_wf := hbuf.wf
    buffers_below := hbuf.below }

theorem invariant_reset : Invariant State.reset :=
  invariant_of_notLive rfl rfl (fun _ => rfl) (fun _ => rfl) rfl ⟨rfl, rfl⟩
    ⟨config_bufBytes_range, reset_buffers_wf, rfl, rfl⟩

/-- Settles O58: in the reset state no Request is live, and nothing is listed in the buffers. -/
theorem resetMeetsInvariant : Obligations.ResetMeetsInvariant := invariant_reset

theorem buffersOk_of_commit {u : State} (h : Invariant (commit u)) : BuffersOk u.bufBytes u.srcBuf u.dstBuf :=
  ⟨h.bufBytes_range, h.buffers_wf, h.buffers_below⟩

/-- Neither the begin of a cycle nor the record of the ports matters to the invariants. -/
theorem invariant_sampled {s : State} (h : Invariant s) (r : List CycleIn) : Invariant (commit (sampled s r)) :=
  { h with masks_clear := ⟨rfl, rfl⟩ }

theorem invariant_withPorts {u : State} (h : Invariant (commit u)) (c : CycleIn) (o : PortOut) :
    Invariant (commit (withPorts c o u)) :=
  { h with masks_clear := ⟨rfl, rfl⟩ }

/-- The draw touches enc_rdy in WRITING only. -/
theorem invariant_encoderPhase {u : State} (h : Invariant (commit u)) : Invariant (commit (encoderPhase u)) := by
  rcases encoderPhase_cases u with ⟨hs, -, e⟩ | ⟨-, e⟩ <;> rw [e]
  · exact { h with encRdy_clear := fun hne => absurd hs hne }
  · exact h

theorem invariant_linkFatal {u : State} (h : Invariant (commit u)) :
    Invariant (commit (enterError .linkFatal u)) :=
  have hbuf := buffersOk_of_commit h
  invariant_of_notLive rfl rfl (fun _ => rfl) (fun _ => rfl) rfl ⟨rfl, rfl⟩ hbuf

/-- A cycle fails where the header is done and the scanner at rest. -/
theorem invariant_cycleFail {u : State} (code : ErrCode) (hidx : u.hdrIdx = 0) (hseen : u.seenM0 = false)
    (hbuf : BuffersOk u.bufBytes u.srcBuf u.dstBuf) : Invariant (commit (enterError (.cycleFail code) u)) :=
  invariant_of_notLive rfl rfl (fun _ => hidx) (fun _ => hseen) rfl ⟨rfl, rfl⟩ hbuf

/-- A host access that runs no command keeps the source descriptor that WRITING rests on, and stores inside SRC_BUF. -/
theorem invariant_accessed {s0 : EngineState} {c : CycleIn} {u v : State} (h : Invariant (commit u))
    (hs0 : u.state = .writing → s0 = .writing) (hv : Accessed s0 c u v) : Invariant (commit v) := by
  obtain ⟨set, clear, enable, hh, w, ch, m, rfl, hkeep, hstore⟩ := hv
  exact { h with
    masks_clear := ⟨rfl, rfl⟩
    writing_source := fun hs => by
      obtain ⟨rfl, rfl, rfl, rfl⟩ := hkeep (.inl (hs0 hs))
      exact h.writing_source hs
    buffers_wf := ⟨hstore.wf h.buffers_wf.1, h.buffers_wf.2⟩
    buffers_below := ⟨hstore.below h.buffers_below.1, h.buffers_below.2⟩ }

theorem invariant_accepted {u v : State} (h : Invariant (commit u)) (hv : Accepted u v) : Invariant (commit v) := by
  have hbuf := buffersOk_of_commit h
  have hidx : u.state ≠ .hdr → u.hdrIdx = 0 := h.hdrIdx_zero
  have hseen : u.state ≠ .scan → u.seenM0 = false := h.seenM0_clear
  have hrdy : u.state ≠ .writing → u.encRdy = false := h.encRdy_clear
  have hvalid : u.reqValid = u.state.live := h.valid_iff_live
  cases hv with
  | poll hs =>
    exact invariant_of_notLive rfl (hvalid.trans (by rw [hs]; rfl)) (fun _ => rfl) (fun _ => rfl)
      (hrdy (by rw [hs]; nofun)) ⟨rfl, rfl⟩ hbuf
  | read hs hdir hfits =>
    have hlive : u.state.live = true := by rw [hs]; rfl
    exact { h with
      valid_iff_live := hvalid.trans hlive
      hdrIdx_zero := fun _ => hidx (by rw [hs]; nofun)
      seenM0_clear := fun _ => hseen (by rw [hs]; nofun)
      transfer_open := fun _ => h.payload_pos hlive
      payload_sized := fun _ => h.payload_sized hlive
      payload_pos := fun _ => h.payload_pos hlive
      direction_legal := fun _ => h.direction_legal hlive
      format_legal := fun _ => h.format_legal hlive
      reading_direction := fun _ => hdir
      writing_direction := nofun
      encRdy_clear := fun _ => hrdy (by rw [hs]; nofun)
      reading_fits := fun _ => hfits
      writing_source := nofun }
  | overflow hs =>
    exact invariant_cycleFail _ (hidx (by rw [hs]; nofun)) (hseen (by rw [hs]; nofun)) hbuf
  | write hs hdir hsrc =>
    have hlive : u.state.live = true := by rw [hs]; rfl
    exact { h with
      valid_iff_live := hvalid.trans hlive
      hdrIdx_zero := fun _ => hidx (by rw [hs]; nofun)
      seenM0_clear := fun _ => hseen (by rw [hs]; nofun)
      transfer_open := fun _ => h.payload_pos hlive
      payload_sized := fun _ => h.payload_sized hlive
      payload_pos := fun _ => h.payload_pos hlive
      direction_legal := fun _ => h.direction_legal hlive
      format_legal := fun _ => h.format_legal hlive
      reading_direction := nofun
      writing_direction := fun _ => hdir
      encRdy_clear := fun _ => rfl
      reading_fits := nofun
      writing_source := fun _ => hsrc }
  | cancel hs =>
    exact invariant_of_notLive rfl rfl (fun _ => rfl) (fun _ => rfl)
      (hrdy (by rcases hs with hs | hs <;> rw [hs] <;> nofun)) ⟨rfl, rfl⟩ hbuf

theorem invariant_takeOffered_scan {u : State} (c : CycleIn) (h : Invariant (commit u)) (hs : u.state = .scan) :
    Invariant (commit (takeOffered c u)) := by
  have hbuf := buffersOk_of_commit h
  have hvalid : u.reqValid = u.state.live := h.valid_iff_live
  have hrdy : u.encRdy = false := h.encRdy_clear (by rw [commit_state, hs]; nofun)
  rcases takeOffered_scan_cases c hs with ⟨-, e⟩ | ⟨-, -, -, e⟩ | ⟨-, -, e⟩ <;> rw [e]
  · exact h
  · exact invariant_of_notLive rfl (hvalid.trans (by rw [hs]; rfl)) (fun _ => rfl) (fun _ => rfl) hrdy ⟨rfl, rfl⟩
      hbuf
  · exact { h with seenM0_clear := fun hne => absurd hs hne }

/-- A valid header has a payload. -/
theorem payloadBytes_pos {height width : Half} {fmt : BitVec 2} (hheight : height ≠ 0) (hwidth : width ≠ 0)
    (hfmt : fmt = 1 ∨ fmt = 2 ∨ fmt = 3) : 1 ≤ payloadBytes height width fmt := by
  have hh : 0 < height.toNat := by bv_omega
  have hw : 0 < width.toNat := by bv_omega
  have hb : 0 < bpp fmt := by rcases hfmt with rfl | rfl | rfl <;> decide
  exact Nat.mul_pos (Nat.mul_pos hh hw) hb

theorem invariant_accept {u : State} (raw : HdrRaw) {dir : Byte} {height width : Half} {fmt : Byte}
    (h : Invariant (commit u)) (hs : u.state = .hdr) (hwf : (Instr.hdr dir height width fmt).wellFormed = true)
    (hfits : payloadBytes height width (fmt.setWidth 2) ≤ 4294967295) :
    Invariant (commit
      (acceptHeader (payloadBytes height width (fmt.setWidth 2)) (withRequest raw dir height width fmt u))) := by
  obtain ⟨⟨hdir, hheight, hwidth⟩, hfmt⟩ := (wellFormed_hdr dir height width fmt).mp hwf
  have hfmt2 : fmt.setWidth 2 = 1 ∨ fmt.setWidth 2 = 2 ∨ fmt.setWidth 2 = (3 : BitVec 2) := by
    rcases hfmt with (rfl | rfl) | rfl
    · exact .inl rfl
    · exact .inr (.inl rfl)
    · exact .inr (.inr rfl)
  have hsize : (BitVec.ofNat 32 (payloadBytes height width (fmt.setWidth 2))).toNat =
      payloadBytes height width (fmt.setWidth 2) := Nat.mod_eq_of_lt (Nat.lt_succ_of_le hfits)
  exact { h with
    valid_iff_live := rfl
    hdrIdx_zero := fun _ => rfl
    seenM0_clear := fun _ => h.seenM0_clear (by rw [commit_state, hs]; nofun)
    transfer_open := nofun
    payload_sized := fun _ => hsize
    payload_pos := fun _ => hsize.symm ▸ payloadBytes_pos hheight hwidth hfmt2
    direction_legal := fun _ => by rcases hdir with rfl | rfl; exacts [.inl rfl, .inr rfl]
    format_legal := fun _ => hfmt2
    reading_direction := nofun
    writing_direction := nofun
    encRdy_clear := fun _ => h.encRdy_clear (by rw [commit_state, hs]; nofun)
    reading_fits := nofun
    writing_source := nofun
    masks_clear := ⟨rfl, rfl⟩ }

theorem invariant_hdrOutcome {u v : State} (h : Invariant (commit u)) (hs : u.state = .hdr) (hv : HdrOutcome u v) :
    Invariant (commit v) := by
  have hbuf := buffersOk_of_commit h
  have hvalid : u.reqValid = u.state.live := h.valid_iff_live
  have hrdy : u.encRdy = false := h.encRdy_clear (by rw [commit_state, hs]; nofun)
  have hseen : u.seenM0 = false := h.seenM0_clear (by rw [commit_state, hs]; nofun)
  cases hv with
  | goesOn raw idx => exact { h with hdrIdx_zero := fun hne => absurd hs hne }
  | resync raw hcode =>
    exact invariant_of_notLive rfl (hvalid.trans (by rw [hs]; rfl)) (fun _ => rfl) (fun _ => rfl) hrdy ⟨rfl, rfl⟩
      hbuf
  | overflow raw dir height width fmt => exact invariant_cycleFail _ rfl hseen hbuf
  | accepted raw hwf hfits => exact invariant_accept raw h hs hwf hfits

/-- A count below the size that does not reach it stays below it. -/
theorem count_succ_lt {n size : Word} (hopen : n.toNat < size.toNat) (hmore : n + 1 ≠ size) :
    (n + 1).toNat < size.toNat := by
  bv_omega

theorem invariant_readingOutcome {u v : State} (h : Invariant (commit u)) (hs : u.state = .reading)
    (hv : ReadingOutcome u v) : Invariant (commit v) := by
  have hbuf := buffersOk_of_commit h
  have hidx : u.hdrIdx = 0 := h.hdrIdx_zero (by rw [commit_state, hs]; nofun)
  have hseen : u.seenM0 = false := h.seenM0_clear (by rw [commit_state, hs]; nofun)
  have hrdy : u.encRdy = false := h.encRdy_clear (by rw [commit_state, hs]; nofun)
  cases hv with
  | goesOn held hm hn =>
    have hopen : u.xferCount.toNat < u.payloadSize.toNat := h.transfer_open (by rw [commit_state, hs]; rfl)
    exact { h with
      transfer_open := fun _ => by
        rcases hn with rfl | ⟨rfl, hmore⟩
        · exact hopen
        · exact count_succ_lt hopen hmore
      buffers_wf := (hbuf.storeDst hm).wf
      buffers_below := (hbuf.storeDst hm).below }
  | completes held hm hn =>
    exact invariant_of_notLive rfl rfl (fun _ => hidx) (fun _ => hseen) hrdy ⟨rfl, rfl⟩
      (hbuf.storeDst hm)
  | fails held n hm => exact invariant_cycleFail _ hidx hseen (hbuf.storeDst hm)

theorem invariant_writingOutcome {c : CycleIn} {u v : State} (h : Invariant (commit u)) (hs : u.state = .writing)
    (hv : WritingOutcome c u v) : Invariant (commit v) := by
  have hbuf := buffersOk_of_commit h
  have hidx : u.hdrIdx = 0 := h.hdrIdx_zero (by rw [commit_state, hs]; nofun)
  have hseen : u.seenM0 = false := h.seenM0_clear (by rw [commit_state, hs]; nofun)
  cases hv with
  | holds hno => exact h
  | sends hsent hmore =>
    have hopen : u.xferCount.toNat < u.payloadSize.toNat := h.transfer_open (by rw [commit_state, hs]; rfl)
    exact { h with
      transfer_open := fun _ => count_succ_lt hopen hmore
      encRdy_clear := fun _ => rfl }
  | completes hsent hlast =>
    exact invariant_of_notLive rfl rfl (fun _ => hidx) (fun _ => hseen) rfl ⟨rfl, rfl⟩ hbuf
  | fails hno => exact invariant_cycleFail _ hidx hseen hbuf
  | sendsAndFails hsent => exact invariant_cycleFail _ hidx hseen hbuf

theorem invariant_cycleResult {s t : State} {c : CycleIn} {r : List CycleIn} (h : Invariant s)
    (ht : CycleResult s c r t) : Invariant t := by
  have hbegun := invariant_sampled h r
  have haccessed : Invariant (commit (accessed s c r)) := invariant_accessed hbegun id (accessed_accessed s c r)
  have hstate := accessed_state s c r
  have hbuf := buffersOk_of_invariant h
  cases ht with
  | reset hr =>
    exact invariant_of_notLive rfl rfl (fun _ => rfl) (fun _ => rfl) rfl ⟨rfl, rfl⟩ hbuf
  | linkLost hr hdown hu => exact invariant_withPorts (invariant_accessed (invariant_linkFatal hbegun) nofun hu) _ _
  | command hc hw hacc hu => exact invariant_encoderPhase (invariant_withPorts (invariant_accepted hbegun hu) _ _)
  | quiet hr hs => exact invariant_withPorts haccessed _ _
  | scan hc hs => exact invariant_withPorts (invariant_takeOffered_scan c haccessed (hstate.trans hs)) _ _
  | hdr hc hs =>
    exact invariant_withPorts
      (invariant_hdrOutcome haccessed (hstate.trans hs) (hdr_outcome _ c (hstate.trans hs))) _ _
  | reading hc hs =>
    exact invariant_withPorts
      (invariant_readingOutcome haccessed (hstate.trans hs) (reading_outcome _ c (hstate.trans hs))) _ _
  | writing hc hs =>
    exact invariant_encoderPhase (invariant_withPorts
      (invariant_writingOutcome haccessed (hstate.trans hs) (writing_outcome c _)) _ _)

/-- Settles O59: each way a cycle can go keeps them. -/
theorem stepKeepsInvariant : Obligations.StepKeepsInvariant := by
  unfold Obligations.StepKeepsInvariant
  intro s t h ht
  exact invariant_cycleResult h (cycleResult_of_step ht)

end Sys2Proof.Proofs

namespace Sys2Proof.Proofs

open Sys2Proof.Machine Sys2Proof.Laws

/-! ### The books of a cycle

The registers that count, log and describe: what each cycle makes of them, STATE by STATE. -/

/-- The source descriptor, SRC_BUF and BUF_BYTES. -/
def source (s : State) : Half × Half × BitVec 2 × Memory × Nat := (s.srcH, s.srcW, s.srcC, s.srcBuf, s.bufBytes)

/-- The Request, the destination and its tag, the counters and the transmit stream. -/
structure Books where
  request : BitVec 2 × Half × Half × BitVec 2 × Word
  tag : Half × Half × BitVec 2
  dstBuf : Memory
  scanCount : Word
  resyncCount : Word
  txLog : List Byte

/-- The books of a state. -/
def books (s : State) : Books where
  request := (s.reqDir, s.reqH, s.reqW, s.reqFmt, s.payloadSize)
  tag := (s.dstH, s.dstW, s.dstC)
  dstBuf := s.dstBuf
  scanCount := s.scanCount
  resyncCount := s.resyncCount
  txLog := s.txLog

theorem Accessed.books_eq {s0 : EngineState} {c : CycleIn} {u v : State} (h : Accessed s0 c u v) :
    books v = books u := by
  obtain ⟨_, _, _, _, _, _, _, rfl, -⟩ := h
  rfl

theorem Accessed.state_eq {s0 : EngineState} {c : CycleIn} {u v : State} (h : Accessed s0 c u v) :
    v.state = u.state := by
  obtain ⟨_, _, _, _, _, _, _, rfl, -⟩ := h
  rfl

theorem Accessed.bufBytes_eq {s0 : EngineState} {c : CycleIn} {u v : State} (h : Accessed s0 c u v) :
    v.bufBytes = u.bufBytes := by
  obtain ⟨_, _, _, _, _, _, _, rfl, -⟩ := h
  rfl

/-- In WRITING, and without a bus write, the source stays. -/
theorem Accessed.source_eq {s0 : EngineState} {c : CycleIn} {u v : State} (h : Accessed s0 c u v)
    (hkept : s0 = .writing ∨ ¬(c.busEn = true ∧ c.busWe = true)) : source v = source u := by
  obtain ⟨_, _, _, _, _, _, _, rfl, hkeep, -⟩ := h
  obtain ⟨rfl, rfl, rfl, rfl⟩ := hkeep hkept
  rfl

theorem Accepted.keeps {u v : State} (h : Accepted u v) : books v = books u ∧ source v = source u := by
  cases h <;> exact ⟨rfl, rfl⟩

theorem takeOffered_scan_keeps {c : CycleIn} {u : State} (hs : u.state = .scan) :
    books (takeOffered c u) =
      { books u with scanCount := (books u).scanCount + if c.rxValid = true then 1 else 0 } ∧
    source (takeOffered c u) = source u := by
  rcases takeOffered_scan_cases c hs with ⟨hv, e⟩ | ⟨hv, -, -, e⟩ | ⟨hv, -, e⟩ <;> rw [e, hv]
  · exact ⟨congrArg (fun n => { books u with scanCount := n }) (BitVec.add_zero _).symm, rfl⟩
  · exact ⟨rfl, rfl⟩
  · exact ⟨rfl, rfl⟩

/-- Of the cycles of HDR those that end in SCAN count a resynchronization. -/
theorem HdrOutcome.resyncCount_eq {u v : State} (h : HdrOutcome u v) (hs : u.state = .hdr) :
    (books v).resyncCount = (books u).resyncCount + if v.state = .scan then 1 else 0 := by
  cases h with
  | goesOn raw idx =>
    have hno : ¬u.state = .scan := by rw [hs]; nofun
    exact (BitVec.add_zero _).symm.trans (by rw [if_neg hno]; rfl)
  | resync raw hcode => rfl
  | overflow raw dir height width fmt => exact (BitVec.add_zero _).symm
  | accepted raw hwf hfits => exact (BitVec.add_zero _).symm

theorem HdrOutcome.keeps {u v : State} (h : HdrOutcome u v) :
    books v = { books u with request := (books v).request, resyncCount := (books v).resyncCount } ∧ source v = source u := by
  cases h <;> exact ⟨rfl, rfl⟩

theorem ReadingOutcome.keeps {u v : State} (h : ReadingOutcome u v) :
    books v = { books u with tag := (books v).tag, dstBuf := (books v).dstBuf } ∧ source v = source u := by
  cases h <;> exact ⟨rfl, rfl⟩

/-- Only the completion of a decode writes the tag. -/
theorem ReadingOutcome.tag_eq {u v : State} (h : ReadingOutcome u v) :
    (books v).tag = (books u).tag ∨ v.state = .idle ∧ v.xferCount = u.payloadSize := by
  cases h with
  | goesOn held hm hn => exact .inl rfl
  | completes held hm hn => exact .inr ⟨rfl, hn.2⟩
  | fails held n hm => exact .inl rfl

/-- Without a byte READING keeps DST_BUF. -/
theorem timeOut_takeRead_dstBuf {c : CycleIn} (idx0 : Fin 6) (u : State) (hv : c.rxValid = false) :
    (books (timeOut .reading idx0 c (takeRead c u))).dstBuf = (books u).dstBuf := by
  have hidle : takeRead c u = u := if_neg (Bool.eq_false_iff.mp hv)
  rw [hidle, timeOut]
  split <;> rfl

theorem WritingOutcome.keeps {c : CycleIn} {u v : State} (h : WritingOutcome c u v) :
    books v = { books u with
      txLog := (books u).txLog ++ if u.encRdy = true ∧ c.txReady = true then [encByte u u.xferCount.toNat] else [] } ∧
    source v = source u := by
  cases h with
  | holds hno => exact ⟨by rw [if_neg hno, List.append_nil], rfl⟩
  | sends hsent hmore => exact ⟨by rw [if_pos hsent]; rfl, rfl⟩
  | completes hsent hlast => exact ⟨by rw [if_pos hsent]; rfl, rfl⟩
  | fails hno => exact ⟨by rw [if_neg hno, List.append_nil]; rfl, rfl⟩
  | sendsAndFails hsent => exact ⟨by rw [if_pos hsent]; rfl, rfl⟩

theorem encoderPhase_keeps (u : State) : books (encoderPhase u) = books u ∧ source (encoderPhase u) = source u := by
  obtain ⟨_, e⟩ := encoderPhase_eq_encRdy u
  rw [e]
  exact ⟨rfl, rfl⟩

/-- In WRITING the host access leaves what E is made of. -/
theorem accessed_encByte {s : State} (c : CycleIn) (r : List CycleIn) (hs : s.state = .writing) (k : Nat) :
    encByte (accessed s c r) k = encByte s k := by
  obtain ⟨_, _, _, _, _, _, _, e, hkeep, -⟩ := accessed_accessed s c r
  obtain ⟨rfl, rfl, rfl, rfl⟩ := hkeep (.inl hs)
  rw [e]
  rfl

/-- What a cycle without reset makes of the books. -/
inductive Booked (s : State) (c : CycleIn) (t : State) : Prop where
  | nothing (hrx : rxReady s c = false) (htx : txValid s c = false) (hstate : s.state = .hdr → t.state ≠ .scan)
      (h : books t = books s)
  | scan (hc : undisturbed c = true) (hs : s.state = .scan)
      (h : books t = { books s with scanCount := (books s).scanCount + if c.rxValid = true then 1 else 0 })
  | hdr (hc : linked c = true) (hs : s.state = .hdr)
      (h : books t = { books s with request := (books t).request, resyncCount := (books t).resyncCount })
      (hcount : (books t).resyncCount = (books s).resyncCount + if t.state = .scan then 1 else 0)
  | reading (hc : linked c = true) (hs : s.state = .reading)
      (h : books t = { books s with tag := (books t).tag, dstBuf := (books t).dstBuf })
      (hdst : c.rxValid = false → (books t).dstBuf = (books s).dstBuf)
      (htag : (books t).tag = (books s).tag ∨ t.state = .idle ∧ t.xferCount = s.payloadSize)
  | writing (hc : linked c = true) (hs : s.state = .writing)
      (h : books t = { books s with
        txLog := (books s).txLog ++ if s.encRdy = true ∧ c.txReady = true then [encByte s s.xferCount.toNat] else [] })

theorem rxReady_of_linkDown (s : State) {c : CycleIn} (h : c.linkUp = false) : rxReady s c = false := by
  simp [rxReady, h]

theorem txValid_of_notWriting {s : State} (c : CycleIn) (h : s.state ≠ .writing) : txValid s c = false :=
  Bool.eq_false_iff.mpr fun hv => h (txValid_iff.mp hv).2.2.1

/-- No byte is taken in the cycle of an accepted command. -/
theorem rxReady_of_accepted {s : State} {c : CycleIn} (hw : writesCmd c = true)
    (hacc : commandAccepted s c.busWdata = true) : rxReady s c = false := by
  rcases commandAccepted_cases hw hacc with ⟨-, hs⟩ | ⟨-, hs, -⟩ | ⟨-, hs, -⟩ | ⟨hcancel, hs | hs⟩
  case inr.inr.inr.inl => exact rxReady_of_cancelNow (cancelNow_iff.mpr ⟨hcancel, hs⟩)
  all_goals simp [rxReady, hs]

theorem Accepted.notTransferring {u v : State} (h : Accepted u v) :
    u.state = .idle ∨ u.state = .hdrDecoded ∨ u.state = .scan := by
  cases h with
  | cancel hs => exact hs.elim (fun h => .inr (.inr h)) fun h => .inr (.inl h)
  | poll hs => exact .inl hs
  | read hs => exact .inr (.inl hs)
  | overflow hs => exact .inr (.inl hs)
  | write hs => exact .inr (.inl hs)

/-- Phases 4 and 5 write none of the books, and the ports are not among them. -/
theorem books_commit (c : CycleIn) (o : PortOut) (u : State) : books (commit (withPorts c o u)) = books u := rfl

theorem books_commit_encoderPhase (c : CycleIn) (o : PortOut) (u : State) :
    books (commit (encoderPhase (withPorts c o u))) = books u :=
  (encoderPhase_keeps (withPorts c o u)).1

theorem source_commit (c : CycleIn) (o : PortOut) (u : State) : source (commit (withPorts c o u)) = source u := rfl

theorem source_commit_encoderPhase (c : CycleIn) (o : PortOut) (u : State) :
    source (commit (encoderPhase (withPorts c o u))) = source u :=
  (encoderPhase_keeps (withPorts c o u)).2

theorem booked_of_cycleResult {s t : State} {c : CycleIn} {r : List CycleIn} (hr : c.rst = false)
    (ht : CycleResult s c r t) : Booked s c t := by
  have hstate := accessed_state s c r
  have hbooks : books (accessed s c r) = books s := (accessed_accessed s c r).books_eq
  cases ht with
  | reset h => exact nomatch hr.symm.trans h
  | linkLost _ hdown hu =>
    refine .nothing (rxReady_of_linkDown s hdown) (by simp [txValid, hdown]) (fun _ => ?_) ?_
    · rw [commit_state, withPorts_state, hu.state_eq]
      nofun
    · rw [books_commit, hu.books_eq]
      rfl
  | command hc hw hacc hu =>
    have hs : s.state = .idle ∨ s.state = .hdrDecoded ∨ s.state = .scan := hu.notTransferring
    refine .nothing (rxReady_of_accepted hw hacc) (txValid_of_notWriting c ?_) (fun h => ?_) ?_
    · rcases hs with hs | hs | hs <;> rw [hs] <;> nofun
    · rw [h] at hs
      rcases hs with hs | hs | hs <;> exact nomatch hs
    · rw [books_commit_encoderPhase, hu.keeps.1]
      rfl
  | quiet _ hs =>
    refine .nothing ?_ (txValid_of_notWriting c ?_) (fun h => ?_) ((books_commit _ _ _).trans hbooks)
    · rcases hs with hs | hs <;> simp [rxReady, hs]
    · rcases hs with hs | hs <;> rw [hs] <;> nofun
    · rcases hs with hs | hs <;> exact nomatch hs.symm.trans h
  | scan hc hs =>
    obtain ⟨hkeep, -⟩ := takeOffered_scan_keeps (c := c) (hstate.trans hs)
    rw [hbooks] at hkeep
    exact .scan hc hs (by rwa [books_commit])
  | hdr hc hs =>
    have hout := hdr_outcome s.hdrIdx c (hstate.trans hs)
    have hkeep := hout.keeps.1
    have hcount := hout.resyncCount_eq (hstate.trans hs)
    rw [hbooks] at hkeep hcount
    exact .hdr hc hs (by rwa [books_commit]) (by rwa [books_commit])
  | reading hc hs =>
    have hout := reading_outcome s.hdrIdx c (hstate.trans hs)
    have hkeep := hout.keeps.1
    have htag := hout.tag_eq
    rw [hbooks] at hkeep htag
    rw [show (accessed s c r).payloadSize = s.payloadSize from hostAccess_sampled_payloadSize _ _ _ _] at htag
    refine .reading hc hs (by rwa [books_commit]) (fun hv => ?_) (by rwa [books_commit])
    rw [books_commit, timeOut_takeRead_dstBuf _ _ hv, hbooks]
  | writing hc hs =>
    have hkeep := (writing_outcome c (accessed s c r)).keeps.1
    obtain ⟨-, hrdy, hcount⟩ : (accessed s c r).state = s.state ∧ (accessed s c r).encRdy = s.encRdy ∧
      (accessed s c r).xferCount = s.xferCount := hostAccess_sampled_encoder s.state c s r
    rw [hbooks, hrdy, hcount, accessed_encByte c r hs] at hkeep
    exact .writing hc hs (by rwa [books_commit_encoderPhase])

/-- Without reset only a bus write outside WRITING changes the source. -/
theorem source_of_cycleResult {s t : State} {c : CycleIn} {r : List CycleIn} (hr : c.rst = false)
    (hkept : s.state = .writing ∨ ¬(c.busEn = true ∧ c.busWe = true)) (ht : CycleResult s c r t) :
    source t = source s := by
  have hu : source (accessed s c r) = source s := (accessed_accessed s c r).source_eq hkept
  have hstate := accessed_state s c r
  cases ht with
  | reset h => exact nomatch hr.symm.trans h
  | linkLost _ hdown hu =>
    rw [source_commit, hu.source_eq hkept]
    rfl
  | command hc hw hacc hu =>
    rw [source_commit_encoderPhase, hu.keeps.2]
    rfl
  | quiet _ hs => rw [source_commit, hu]
  | scan hc hs => rw [source_commit, (takeOffered_scan_keeps (hstate.trans hs)).2, hu]
  | hdr hc hs => rw [source_commit, (hdr_outcome s.hdrIdx c (hstate.trans hs)).keeps.2, hu]
  | reading hc hs => rw [source_commit, (reading_outcome s.hdrIdx c (hstate.trans hs)).keeps.2, hu]
  | writing hc hs => rw [source_commit_encoderPhase, (writing_outcome c (accessed s c r)).keeps.2, hu]

/-- BUF_BYTES never changes. -/
theorem bufBytes_of_cycleResult {s t : State} {c : CycleIn} {r : List CycleIn} (ht : CycleResult s c r t) :
    t.bufBytes = s.bufBytes := by
  have hu : (accessed s c r).bufBytes = s.bufBytes := (accessed_accessed s c r).bufBytes_eq
  have hsource : ∀ {u v : State}, source v = source u → v.bufBytes = u.bufBytes := fun h =>
    congrArg (fun p => p.2.2.2.2) h
  have hstate := accessed_state s c r
  cases ht with
  | reset h => rfl
  | linkLost _ hdown hu => exact hu.bufBytes_eq
  | command hc hw hacc hu => exact (hsource (source_commit_encoderPhase _ _ _)).trans (hsource hu.keeps.2)
  | quiet _ hs => exact hu
  | scan hc hs => exact (hsource (takeOffered_scan_keeps (hstate.trans hs)).2).trans hu
  | hdr hc hs => exact (hsource (hdr_outcome s.hdrIdx c (hstate.trans hs)).keeps.2).trans hu
  | reading hc hs => exact (hsource (reading_outcome s.hdrIdx c (hstate.trans hs)).keeps.2).trans hu
  | writing hc hs =>
    exact ((hsource (source_commit_encoderPhase _ _ _)).trans
      (hsource (writing_outcome c (accessed s c r)).keeps.2)).trans hu

/-- DST_BUF changes only where READING takes a byte. -/
theorem Booked.dstBuf_eq {s t : State} {c : CycleIn} (h : Booked s c t)
    (hno : ¬(s.state = .reading ∧ c.rxValid = true ∧ rxReady s c = true)) : (books t).dstBuf = (books s).dstBuf := by
  cases h with
  | nothing _ _ _ h => rw [h]
  | scan _ _ h => rw [h]
  | hdr _ _ h _ => rw [h]
  | writing _ _ h => rw [h]
  | reading hc hs _ hdst _ =>
    refine hdst (Bool.eq_false_iff.mpr fun hv => hno ⟨hs, hv, rxReady_of_reading hs hc⟩)

/-- Settles O40: from the books and the source of the cycle. -/
theorem bufferWriters : Obligations.BufferWriters := by
  unfold Obligations.BufferWriters
  intro s t hstep
  have ht := cycleResult_of_step hstep
  refine ⟨fun hno => ?_, fun hkept => ?_, fun hr hkept => ?_, bufBytes_of_cycleResult ht⟩
  · by_cases hr : (currentInput s).rst = true
    · rw [step_of_rst hr] at hstep
      rw [← Host.Outcome.next.inj hstep]
      rfl
    · exact (booked_of_cycleResult (Bool.eq_false_iff.mpr hr) ht).dstBuf_eq hno
  · by_cases hr : (currentInput s).rst = true
    · rw [step_of_rst hr] at hstep
      rw [← Host.Outcome.next.inj hstep]
      rfl
    · have hsource := source_of_cycleResult (Bool.eq_false_iff.mpr hr) (hkept.resolve_left hr) ht
      exact congrArg (fun p => p.2.2.2.1) hsource
  · obtain ⟨hh, hw, hch, -⟩ : s.srcH = t.srcH ∧ s.srcW = t.srcW ∧ s.srcC = t.srcC ∧ _ := by
      simpa only [source, Prod.mk.injEq] using (source_of_cycleResult hr hkept ht).symm
    exact ⟨hh.symm, hw.symm, hch.symm⟩

/-- The Request changes in HDR alone. -/
theorem Booked.request_eq {s t : State} {c : CycleIn} (h : Booked s c t) (hs : s.state ≠ .hdr) :
    (books t).request = (books s).request := by
  cases h with
  | nothing _ _ _ h => rw [h]
  | scan _ _ h => rw [h]
  | hdr _ hhdr _ _ => exact absurd hhdr hs
  | writing _ _ h => rw [h]
  | reading _ _ h _ _ => rw [h]

/-- The tag changes where a decode completes alone. -/
theorem Booked.tag_eq {s t : State} {c : CycleIn} (h : Booked s c t)
    (hno : ¬(s.state = .reading ∧ t.state = .idle ∧ t.xferCount = s.payloadSize)) :
    (books t).tag = (books s).tag := by
  cases h with
  | nothing _ _ _ h => rw [h]
  | scan _ _ h => rw [h]
  | hdr _ _ h _ => rw [h]
  | writing _ _ h => rw [h]
  | reading _ hs _ _ htag => exact htag.resolve_right fun h => hno ⟨hs, h⟩

/-- Settles O41: from the books of the cycle. -/
theorem requestAndTagStable : Obligations.RequestAndTagStable := by
  unfold Obligations.RequestAndTagStable
  intro s t hstep hr
  have hbooked := booked_of_cycleResult hr (cycleResult_of_step hstep)
  refine ⟨fun hs => ?_, fun hno => ?_⟩
  · simpa only [books, Prod.mk.injEq] using hbooked.request_eq hs
  · simpa only [books, Prod.mk.injEq] using hbooked.tag_eq hno

/-- A counter stays where its event does not come. -/
theorem count_of_not {q : Prop} [Decidable q] (n : Word) (hq : ¬q) : n = n + if q then 1 else 0 := by
  rw [if_neg hq]
  exact (BitVec.add_zero n).symm

/-- SCAN_COUNT counts the bytes consumed in SCAN. -/
theorem Booked.scanCount_eq {s t : State} {c : CycleIn} (h : Booked s c t) :
    (books t).scanCount =
      (books s).scanCount + if s.state = .scan ∧ c.rxValid = true ∧ rxReady s c = true then 1 else 0 := by
  cases h with
  | nothing hrx _ _ h => rw [h, hrx]; exact count_of_not _ nofun
  | hdr _ hs h _ => rw [h, hs]; exact count_of_not _ nofun
  | writing _ hs h => rw [h, hs]; exact count_of_not _ nofun
  | reading _ hs h _ _ => rw [h, hs]; exact count_of_not _ nofun
  | scan hc hs h => simp only [h, hs, rxReady_of_undisturbed (.inl hs) hc, and_true, true_and]

/-- RESYNC_COUNT counts the returns from HDR to SCAN. -/
theorem Booked.resyncCount_eq {s t : State} {c : CycleIn} (h : Booked s c t) :
    (books t).resyncCount = (books s).resyncCount + if s.state = .hdr ∧ t.state = .scan then 1 else 0 := by
  cases h with
  | nothing _ _ hstate h => rw [h]; exact count_of_not _ fun ⟨hs, ht⟩ => hstate hs ht
  | scan _ hs h => rw [h, hs]; exact count_of_not _ nofun
  | writing _ hs h => rw [h, hs]; exact count_of_not _ nofun
  | reading _ hs h _ _ => rw [h, hs]; exact count_of_not _ nofun
  | hdr _ hs _ hcount => simpa only [hs, true_and] using hcount

/-- Settles O47: from the books of the cycle. -/
theorem countersCountEvents : Obligations.CountersCountEvents := by
  unfold Obligations.CountersCountEvents
  intro s t hstep hr
  have hbooked := booked_of_cycleResult hr (cycleResult_of_step hstep)
  exact ⟨hbooked.scanCount_eq, hbooked.resyncCount_eq⟩

end Sys2Proof.Proofs

namespace Sys2Proof.Proofs

open Sys2Proof.Machine Sys2Proof.Laws

/-! ### Resynchronization (60_exceptions.md R170) -/

/-- What a resynchronization within the cycle of s leaves in t. -/
def Resynced (s t : State) : Prop :=
  IsHeaderError t.errCode ∧ t.irqStatus.getLsbD 3 = true ∧ t.resyncCount = s.resyncCount + 1 ∧
    t.reqValid = s.reqValid ∧ t.seenM0 = false ∧ t.hdrIdx = 0 ∧ t.reqDir = s.reqDir ∧ t.reqH = s.reqH ∧
    t.reqW = s.reqW ∧ t.reqFmt = s.reqFmt ∧ t.dstBuf = s.dstBuf

/-- The RESYNC bit of the set mask ends set. -/
theorem committedIrq_resync (status set clear : BitVec 7) :
    (committedIrq status (set ||| 0x08) clear).getLsbD 3 = true := by
  simp [committedIrq]

/-- Of the cycles of HDR only a resynchronization ends in SCAN. -/
theorem HdrOutcome.resynced {u v : State} (h : HdrOutcome u v) (hs : u.state = .hdr) (hv : v.state = .scan) :
    Resynced u (commit v) := by
  cases h with
  | goesOn raw idx => exact nomatch hs.symm.trans hv
  | resync raw hcode =>
    exact ⟨hcode, committedIrq_resync _ _ _, rfl, rfl, rfl, rfl, rfl, rfl, rfl, rfl, rfl⟩
  | overflow raw dir height width fmt => exact nomatch hv
  | accepted raw hwf hfits => exact nomatch hv

/-- From HDR only a resynchronization leads to SCAN. -/
theorem resynced_of_cycleResult {s t : State} {c : CycleIn} {r : List CycleIn} (ht : CycleResult s c r t)
    (hs : s.state = .hdr) (hscan : t.state = .scan) : Resynced s t := by
  cases ht with
  | reset h => exact nomatch hscan
  | linkLost _ hdown hu => exact nomatch hu.state_eq.symm.trans hscan
  | command hc hw hacc hu =>
    have hno : s.state = .idle ∨ s.state = .hdrDecoded ∨ s.state = .scan := hu.notTransferring
    rw [hs] at hno
    rcases hno with h | h | h <;> exact nomatch h
  | quiet _ h => rcases h with h | h <;> exact nomatch hs.symm.trans h
  | scan hc h => exact nomatch hs.symm.trans h
  | reading hc h => exact nomatch hs.symm.trans h
  | writing hc h => exact nomatch hs.symm.trans h
  | hdr hc _ =>
    have hout := (hdr_outcome s.hdrIdx c ((accessed_state s c r).trans hs)).resynced
      ((accessed_state s c r).trans hs) hscan
    obtain ⟨_, _, _, _, _, _, _, e, -⟩ := accessed_accessed s c r
    rw [e] at hout ⊢
    exact hout

/-- The header errors that O48 names lead to SCAN by the transition table. -/
theorem tableNext_headerError {s : State} {c : CycleIn} (hs : s.state = .hdr) (hc : linked c = true)
    (herror : (c.rxValid = true ∧ s.hdrIdx = 5 ∧
        (Instr.hdr s.hdrRaw.b0 (halfOf s.hdrRaw.b1 s.hdrRaw.b2) (halfOf s.hdrRaw.b3 s.hdrRaw.b4)
          c.rxData).wellFormed = false) ∨
      (c.rxTimeout = true ∧ (c.rxValid = false ∨ s.hdrIdx = 1 ∨ s.hdrIdx = 3))) : tableNext s c = .scan := by
  obtain ⟨hup, hr⟩ := linked_iff.mp hc
  rcases herror with ⟨hv, h5, hbad⟩ | ⟨hto, hv | h1 | h3⟩
  · simp [tableNext, hr, hup, hs, hv, h5, headerTarget, hbad]
  · simp [tableNext, hr, hup, hs, hv, hto]
  · simp [tableNext, hr, hup, hs, h1, hto]
  · simp [tableNext, hr, hup, hs, h3, hto]

/-- Settles O48: each of the events leads to SCAN, and from HDR only a resynchronization does. -/
theorem resyncStaysInCycle : Obligations.ResyncStaysInCycle := by
  unfold Obligations.ResyncStaysInCycle
  intro s t hinv hstep hs hevent
  have htable := transitionTable s t hinv hstep
  have hscan : t.state = .scan := by
    rcases hevent with ⟨hc, hbad⟩ | ⟨hc, hto⟩ | ⟨hr, hcount⟩ | hscan
    · exact htable.trans (tableNext_headerError hs hc (.inl hbad))
    · exact htable.trans (tableNext_headerError hs hc (.inr hto))
    · by_contra hno
      obtain ⟨-, hsame⟩ := countersCountEvents s t hstep hr
      rw [if_neg fun h => hno h.2] at hsame
      exact hcount (hsame.trans (BitVec.add_zero _))
    · exact hscan
  obtain ⟨hcode, hirq, hcount, hvalid, hrest⟩ := resynced_of_cycleResult (cycleResult_of_step hstep) hs hscan
  have hnone : s.reqValid = false := hinv.valid_iff_live.trans (by rw [hs]; rfl)
  exact ⟨hscan, hcode, hirq, hcount, hvalid.trans hnone, hrest⟩

/-! ### The encoder's ready bit (10_state.md R30) -/

theorem encoderPhase_encRdy {u : State} (hs : u.state = .writing) :
    (encoderPhase u).encRdy = if u.encRdy = true then true else u.inp.encDraw := by
  rcases encoderPhase_cases u with ⟨-, hr, e⟩ | ⟨hno, e⟩ <;> rw [e]
  · rw [hr]; rfl
  · have hr : u.encRdy = true := Bool.not_eq_false _ ▸ fun h => hno ⟨hs, h⟩
    rw [if_pos hr, hr]

/-- What a cycle that ends in WRITING meets before the draw: an accepted WRITE, or a cycle of WRITING whose sink takes the
offered byte or does not. -/
inductive EndsWriting (s : State) (c : CycleIn) (r : List CycleIn) : State → Prop where
  | starts (hs : s.state = .hdrDecoded) :
      EndsWriting s c r { sampled s r with xferCount := 0, encRdy := false, state := .writing }
  | holds (hs : s.state = .writing) (hno : ¬(s.encRdy = true ∧ c.txReady = true)) :
      EndsWriting s c r (accessed s c r)
  | sends (hs : s.state = .writing) (hsent : s.encRdy = true ∧ c.txReady = true) :
      EndsWriting s c r (withSent (accessed s c r))

theorem endsWriting_of_cycleResult {s t : State} {c : CycleIn} {r : List CycleIn} (ht : CycleResult s c r t)
    (hw : t.state = .writing) :
    ∃ u, EndsWriting s c r u ∧ t = commit (encoderPhase (withPorts c (outputs s c) u)) := by
  have hstate := accessed_state s c r
  cases ht with
  | reset h => exact nomatch hw
  | linkLost _ hdown hu => exact nomatch hu.state_eq.symm.trans hw
  | command hc hcmd hacc hu =>
    rw [commit_state, encoderPhase_state] at hw
    cases hu with
    | write hs hdir hsrc => exact ⟨_, .starts hs, rfl⟩
    | poll hs => exact nomatch hw
    | read hs hdir hfits => exact nomatch hw
    | overflow hs => exact nomatch hw
    | cancel hs => exact nomatch hw
  | quiet _ h => rcases h with h | h <;> exact nomatch (hstate.trans h).symm.trans hw
  | scan hc hs => exact absurd hw (takeOffered_leaves c (.inl (hstate.trans hs))).2
  | hdr hc hs =>
    exact absurd hw (timeOut_notWriting (.inr rfl) _ _ (takeOffered_leaves c (.inr (hstate.trans hs))).2)
  | reading hc hs =>
    have hout := reading_outcome s.hdrIdx c (hstate.trans hs)
    generalize timeOut .reading s.hdrIdx c (takeRead c (accessed s c r)) = v at hout hw
    cases hout with
    | goesOn held hm hn => exact nomatch (hstate.trans hs).symm.trans hw
    | completes held hm hn => exact nomatch hw
    | fails held n hm => exact nomatch hw
  | writing hc hs =>
    have hrdy : (accessed s c r).encRdy = s.encRdy := (hostAccess_sampled_encoder s.state c s r).2.1
    have hout := writing_outcome c (accessed s c r)
    rw [commit_state, encoderPhase_state] at hw
    generalize failWrite c (sendOffered c (accessed s c r)) = v at hout hw ⊢
    cases hout with
    | holds hno => exact ⟨_, .holds hs (hrdy ▸ hno), rfl⟩
    | sends hsent hmore => exact ⟨_, .sends hs (hrdy ▸ hsent), rfl⟩
    | completes hsent hlast => exact nomatch hw
    | fails hno => exact nomatch hw
    | sendsAndFails hsent => exact nomatch hw

/-- Settles O56: outside WRITING by the invariants, in WRITING by what the cycle met before the draw. -/
theorem encoderReadyBit : Obligations.EncoderReadyBit := by
  unfold Obligations.EncoderReadyBit
  intro s t hinv hstep hr
  have hwriting : t.state = .writing → ∃ u, EndsWriting s (currentInput s) s.inputs.tail u ∧
      t.encRdy = if u.encRdy = true then true else (currentInput s).encDraw := by
    intro hw
    obtain ⟨u, hu, rfl⟩ := endsWriting_of_cycleResult (cycleResult_of_step hstep) hw
    rw [commit_state, encoderPhase_state] at hw
    exact ⟨u, hu, encoderPhase_encRdy hw⟩
  have hrdy : (accessed s (currentInput s) s.inputs.tail).encRdy = s.encRdy :=
    (hostAccess_sampled_encoder s.state _ s _).2.1
  refine ⟨(stepKeepsInvariant s t hinv hstep).encRdy_clear, fun hw hheld hready => ?_, fun hw hdraws => ?_⟩ <;>
    obtain ⟨u, hu, e⟩ := hwriting hw <;> rw [e]
  · cases hu with
    | starts hs => exact nomatch hheld.symm.trans (hinv.encRdy_clear (by rw [hs]; nofun))
    | holds hs hno => rw [hrdy, hheld]; rfl
    | sends hs hsent => exact nomatch hready.symm.trans hsent.2
  · cases hu with
    | starts hs => rfl
    | holds hs hno =>
      have hclear : s.encRdy = false := hdraws.elim id fun h => Bool.eq_false_iff.mpr fun hheld => hno ⟨hheld, h⟩
      rw [hrdy, hclear]
      rfl
    | sends hs hsent => rfl

/-! ### The byte ports -/

theorem rxReady_iff {s : State} {c : CycleIn} :
    rxReady s c = true ↔
      c.rst = false ∧ c.linkUp = true ∧ (s.state = .scan ∨ s.state = .hdr ∨ s.state = .reading) ∧
        ¬(s.state = .scan ∧ hostCommand c = some .cancel) := by
  have hcancel : cancelNow s c = false ↔ ¬(s.state = .scan ∧ hostCommand c = some .cancel) := by
    rw [← Bool.not_eq_true, cancelNow_iff, and_comm]
  simp only [rxReady, Bool.and_eq_true, Bool.not_eq_true', hcancel, Bool.or_eq_true, beq_iff_eq, and_assoc, or_assoc]

/-- When a byte moves, link loss and the bus access leave STATE as it was (43_transfer_engine.md R149). -/
theorem busPhase_of_handshake {s : State} {c : CycleIn} (r : List CycleIn)
    (h : rxReady s c = true ∨ txValid s c = true) :
    busPhase s.state (linkPhase (withPorts c (outputs s c) (sampled s r))) =
      .next (withPorts c (outputs s c) (accessed s c r)) := by
  have hup : c.linkUp = true := by
    rcases h with h | h
    · exact (rxReady_iff.mp h).2.1
    · exact (txValid_iff.mp h).2.1
  rw [linkPhase_up hup]
  refine busPhase_eq_hostAccess_of_notAccepted _ fun hw hacc => ?_
  rcases h with h | h
  · exact nomatch h.symm.trans (rxReady_of_accepted (s := s) hw hacc)
  · obtain ⟨-, -, hs, -⟩ := txValid_iff.mp h
    rcases commandAccepted_cases (s := s) hw hacc with ⟨-, h⟩ | ⟨-, h, -⟩ | ⟨-, h, -⟩ | ⟨-, h | h⟩ <;>
      exact nomatch hs.symm.trans h

/-- A byte is offered in WRITING only. -/
theorem tx_toList_eq (s : State) (c : CycleIn) :
    (outputs s c).tx.toList = if txValid s c = true then [encByte s s.xferCount.toNat] else [] := by
  rw [outputs_tx]
  split <;> rfl

/-- What a cycle sends is what it offers and the sink takes. -/
theorem Booked.txLog_eq {s t : State} {c : CycleIn} (h : Booked s c t) :
    (books t).txLog = (books s).txLog ++ if c.txReady = true then (outputs s c).tx.toList else [] := by
  have hquiet : txValid s c = false →
      (books s).txLog = (books s).txLog ++ if c.txReady = true then (outputs s c).tx.toList else [] := by
    intro htx
    rw [tx_toList_eq, htx, if_neg Bool.false_ne_true, ite_self, List.append_nil]
  cases h with
  | nothing _ htx _ h => rw [h]; exact hquiet htx
  | scan _ hs h => rw [h]; exact hquiet (txValid_of_notWriting c (by rw [hs]; nofun))
  | hdr _ hs h _ => rw [h]; exact hquiet (txValid_of_notWriting c (by rw [hs]; nofun))
  | reading _ hs h _ _ => rw [h]; exact hquiet (txValid_of_notWriting c (by rw [hs]; nofun))
  | writing hc hs h =>
    rw [h, tx_toList_eq, txValid_of_writing hs hc, ← ite_and]
    simp only [and_comm]

/-- A byte not taken is offered again. -/
theorem tx_offered_again {s t : State} {c d : CycleIn} {r : List CycleIn} {b : Byte} (ht : CycleResult s c r t)
    (hb : (outputs s c).tx = some b) (hready : c.txReady = false) (hw : t.state = .writing) (hr : d.rst = false)
    (hup : d.linkUp = true) : (outputs t d).tx = some b := by
  have hvalid : txValid s c = true := by
    by_contra h
    rw [outputs_tx, if_neg h] at hb
    exact nomatch hb
  obtain ⟨-, -, hs, hheld⟩ := txValid_iff.mp hvalid
  obtain ⟨-, hrdy, hcount⟩ : _ ∧ (accessed s c r).encRdy = s.encRdy ∧ (accessed s c r).xferCount = s.xferCount :=
    hostAccess_sampled_encoder s.state c s r
  obtain ⟨u, hu, rfl⟩ := endsWriting_of_cycleResult ht hw
  cases hu with
  | starts h => exact nomatch hs.symm.trans h
  | sends _ hsent => exact nomatch hready.symm.trans hsent.2
  | holds _ _ =>
    have hdraw : encoderPhase (withPorts c (outputs s c) (accessed s c r)) =
        withPorts c (outputs s c) (accessed s c r) :=
      if_neg fun ⟨_, hclear⟩ => Bool.eq_false_iff.mp hclear (hrdy.trans hheld)
    rw [hdraw]
    have hagain : txValid (commit (withPorts c (outputs s c) (accessed s c r))) d = true :=
      txValid_iff.mpr ⟨hr, hup, (accessed_state s c r).trans hs, hrdy.trans hheld⟩
    rw [outputs_tx, if_pos hagain, ← hb, outputs_tx, if_pos hvalid, ← accessed_encByte c r hs, ← hcount]
    rfl

/-- Settles O53: the ports as functions of the state and the inputs, the books for what is sent, and the bus access of a
cycle in which a byte moves. -/
theorem handshakeHalfDuplexAndKept : Obligations.HandshakeHalfDuplexAndKept := by
  unfold Obligations.HandshakeHalfDuplexAndKept
  refine ⟨fun s c => ⟨rxReady_iff, ?_, rfl, ?_⟩, fun s t hstep => ⟨?_, ?_, fun b c hb hready hw hr hup => ?_⟩,
    fun s => ⟨?_, fun hmoves => ?_⟩⟩
  · rw [outputs_tx]
    exact if_congr txValid_iff rfl rfl
  · rw [outputs_tx]
    cases txValid s c <;> rfl
  · obtain ⟨u, hu, -, hout⟩ := step_answers s
    rwa [Host.Outcome.next.inj (hstep.symm.trans hu)]
  · by_cases hr : (currentInput s).rst = true
    · rw [step_of_rst hr] at hstep
      rw [← Host.Outcome.next.inj hstep, tx_toList_eq, txValid_of_rst s hr, if_neg Bool.false_ne_true, ite_self,
        List.append_nil]
      rfl
    · exact (booked_of_cycleResult (Bool.eq_false_iff.mpr hr) (cycleResult_of_step hstep)).txLog_eq
  · exact tx_offered_again (cycleResult_of_step hstep) hb hready hw hr hup
  · rintro ⟨hrx, htx⟩
    obtain ⟨-, -, hs, -⟩ := txValid_iff.mp htx
    exact nomatch hrx.symm.trans (rxReady_of_writing hs _)
  · exact ⟨_, busPhase_of_handshake s.inputs.tail (hmoves.imp_left And.right), accessed_state _ _ _⟩

/-! ### The instruction a cycle runs -/

/-- A cycle without reset is its phases. -/
theorem step_of_noReset {s : State} (hr : (currentInput s).rst = false) :
    step s = andThen (busPhase s.state (linkPhase (beginCycle s))) fun s2 =>
      andThen (streamPhase s.state s.hdrIdx s2) fun s3 => .next (commit (encoderPhase s3)) :=
  if_neg (Bool.eq_false_iff.mp hr)

theorem linkPhase_inp (s : State) : (linkPhase s).inp = s.inp := by
  rcases linkPhase_cases s with ⟨-, -, e⟩ | ⟨-, e⟩ <;> rw [e]
  exact enterError_inp s _

/-- A command word on the bus. -/
theorem step_of_commandWord {s : State} {i : Instr} (hr : (currentInput s).rst = false)
    (hw : writesCmd (currentInput s) = true) (hi : decode (.command (currentInput s).busWdata) = .ok i) :
    step s = andThen (exec i (linkPhase (beginCycle s))) fun s2 =>
      andThen (streamPhase s.state s.hdrIdx s2) fun s3 => .next (commit (encoderPhase s3)) := by
  rw [step_of_noReset hr, busPhase_of_command (i := i)]
  rw [linkPhase_inp]
  exact hostCommand_eq_some.mpr ⟨hw, hi⟩

section
variable {s : State} {c : CycleIn} {r : List CycleIn} {i : Instr}

/-- A code that a received byte completes. -/
theorem step_of_receivedCode (hrx : rxReady s c = true) (hv : c.rxValid = true)
    (hi : fetchReceived c.rxData (accessed s c r) = .ok i) :
    step (s.fed (c :: r)) = andThen (exec i (withPorts c (outputs s c) (accessed s c r))) fun s3 =>
      .next (commit (encoderPhase
        (if c.rxTimeout = true ∧ s3.state = s.state then timeoutStep s.state s.hdrIdx true s3 else s3))) := by
  obtain ⟨hr, -, hs, -⟩ := rxReady_iff.mp hrx
  have hwriting : s.state ≠ .writing := by rcases hs with hs | hs | hs <;> rw [hs] <;> nofun
  have hmoved : (c.rxValid && (outputs s c).rxReady) = true := by rw [hv, outputs_rxReady, hrx]; rfl
  have hexec : exec i (withPorts c (outputs s c) (accessed s c r)) =
      .next (withPorts c (outputs s c) (receiveStep c.rxData (accessed s c r))) := by
    have h := receivePhase_eq_receiveStep (withPorts c (outputs s c) (accessed s c r))
    rwa [receivePhase, withPorts_inp, fetchReceived_withPorts, hi, receiveStep_withPorts] at h
  rw [step_of_busPhase hr (busPhase_of_handshake r (.inl hrx)), hexec, andThen_next,
    streamStep_of_same _ _ _ (accessed_state s c r), sendTaken_of_none _ _ (tx_none_of_notWriting c hwriting),
    failStep_of_notWriting _ _ hwriting, receiveOffered, if_pos hmoved, expire, hmoved]
  simp only [withPorts_state, timeoutStep_withPorts, withPorts_ite]

/-- The format code at a transmit handshake. -/
theorem step_of_transmitCode (htx : txValid s c = true) (hready : c.txReady = true)
    (hi : decode (.format (s.reqFmt.setWidth 8)) = .ok i) :
    step (s.fed (c :: r)) = andThen (exec i (withPorts c (outputs s c) (accessed s c r))) fun s3 =>
      .next (commit (encoderPhase (writeFailStep s.state s3))) := by
  obtain ⟨hr, -, hs, -⟩ := txValid_iff.mp htx
  have hstate : (accessed s c r).state = .writing := (accessed_state s c r).trans hs
  have hfmt : (accessed s c r).reqFmt = s.reqFmt := (hostAccess_sampled_transfer _ c s r).2.1
  have htaken : ((outputs s c).tx.isSome && c.txReady) = true := by rw [outputs_tx, htx, hready]; rfl
  have hexec : exec i (withPorts c (outputs s c) (accessed s c r)) =
      .next (withPorts c (outputs s c) (transmitByte (accessed s c r))) := by
    have h := transmitPhase_writing (withPorts c (outputs s c) (accessed s c r)) hstate
    rwa [transmitPhase, withPorts_reqFmt, hfmt, hi, transmitByte_withPorts] at h
  rw [step_of_busPhase hr (busPhase_of_handshake r (.inr htx)), hexec, andThen_next, writeFailStep_withPorts_eq,
    streamStep_of_same _ _ _ (accessed_state s c r),
    expire_receiveOffered_writing _ hs (accessed_state s c r), sendTaken, if_pos htaken]

end

/-- Settles O51: the instruction runs in phase 2, 3a or 3c, and the rest of the cycle is around it. -/
theorem stepRunsDecodedInstruction : Obligations.StepRunsDecodedInstruction := by
  unfold Obligations.StepRunsDecodedInstruction
  intro s i hr
  refine ⟨step_of_commandWord hr, fun s2 hv hrx hbus hi => ?_, fun s2 htx hready hbus hi => ?_⟩
  · have hup : (currentInput s).linkUp = true := (rxReady_iff.mp hrx).2.1
    have h := busPhase_of_handshake s.inputs.tail (.inl hrx)
    rw [linkPhase_up hup] at h
    obtain rfl := Host.Outcome.next.inj (h.symm.trans hbus)
    exact step_of_receivedCode (r := s.inputs.tail) hrx hv hi
  · have hup : (currentInput s).linkUp = true := (txValid_iff.mp htx).2.1
    have h := busPhase_of_handshake s.inputs.tail (.inr htx)
    rw [linkPhase_up hup] at h
    obtain rfl := Host.Outcome.next.inj (h.symm.trans hbus)
    exact step_of_transmitCode (r := s.inputs.tail) htx hready hi

end Sys2Proof.Proofs

namespace Sys2Proof.Proofs

open Sys2Proof.Machine Sys2Proof.Laws

/-! ### Registers that phase 3 passes by

The host writes IRQ_STATUS, IRQ_ENABLE, the source descriptor and SRC_BUF; PEND holds half a pixel. Outside WRITING, and
away from an RGB565 pixel half received, no operation of the byte ports reads them: each does the same whatever they
hold. -/

/-- The registers that phase 3 passes by. -/
structure Aside where
  irqStatus : BitVec 7
  irqClear : BitVec 7
  irqEnable : BitVec 7
  srcH : Half
  srcW : Half
  srcC : BitVec 2
  srcBuf : Memory
  pend : Byte

/-- What s holds in them. -/
def asideOf (s : State) : Aside :=
  ⟨s.irqStatus, s.irqClear, s.irqEnable, s.srcH, s.srcW, s.srcC, s.srcBuf, s.pend⟩

/-- The state s with a in them. -/
def withAside (a : Aside) (s : State) : State :=
  { s with
    irqStatus := a.irqStatus, irqClear := a.irqClear, irqEnable := a.irqEnable, srcH := a.srcH, srcW := a.srcW,
    srcC := a.srcC, srcBuf := a.srcBuf, pend := a.pend }

/-- a holds the source of s. -/
def Aside.SameSource (a : Aside) (s : State) : Prop :=
  a.srcH = s.srcH ∧ a.srcW = s.srcW ∧ a.srcC = s.srcC ∧ a.srcBuf = s.srcBuf

section
variable (a : Aside) (s : State)

@[simp] theorem withAside_state : (withAside a s).state = s.state := rfl
@[simp] theorem withAside_reqFmt : (withAside a s).reqFmt = s.reqFmt := rfl
@[simp] theorem withAside_xferCount : (withAside a s).xferCount = s.xferCount := rfl
@[simp] theorem asideOf_withAside : asideOf (withAside a s) = a := rfl

theorem withAside_asideOf : withAside (asideOf s) s = s := rfl

theorem withAside_ite (q : Prop) [Decidable q] (t : State) :
    withAside a (if q then s else t) = if q then withAside a s else withAside a t := apply_ite (withAside a) q s t

theorem enterError_withAside (e : ErrorEntry) : enterError e (withAside a s) = withAside a (enterError e s) := by
  cases e <;> rfl

theorem scanByte_withAside (b : Byte) : scanByte b (withAside a s) = withAside a (scanByte b s) := by
  simp only [scanByte, withAside_ite]
  rfl

theorem headerComplete_withAside (dir : Byte) (height width : Half) (fmt : Byte) :
    headerComplete dir height width fmt (withAside a s) = withAside a (headerComplete dir height width fmt s) := by
  simp only [headerComplete, withAside_ite, ← enterError_withAside]
  rfl

theorem hdrByte_withAside (b : Byte) : hdrByte b (withAside a s) = withAside a (hdrByte b s) := by
  simp only [hdrByte, withAside_ite, ← headerComplete_withAside]
  rfl

theorem plainByte_withAside (b : Byte) : plainByte b (withAside a s) = withAside a (plainByte b s) := by
  cases hs : s.state <;> simp only [plainByte, withAside_state, hs]
  case scan => exact scanByte_withAside a s b
  case hdr => exact hdrByte_withAside a s b

theorem decodeAdvance_withAside : decodeAdvance (withAside a s) = withAside a (decodeAdvance s) := by
  simp only [decodeAdvance, withAside_ite]
  rfl

theorem readPlainByte_withAside (b : Byte) : readPlainByte b (withAside a s) = withAside a (readPlainByte b s) := by
  simp only [readPlainByte, ← decodeAdvance_withAside]
  rfl

theorem timeoutStep_withAside (s0 : EngineState) (idx0 : Fin 6) (moved : Bool) :
    timeoutStep s0 idx0 moved (withAside a s) = withAside a (timeoutStep s0 idx0 moved s) := by
  cases s0
  case hdr => simp only [timeoutStep, withAside_ite, enterError_withAside]
  case reading => simp only [timeoutStep, enterError_withAside]
  all_goals rfl

theorem failWrite_withAside (c : CycleIn) : failWrite c (withAside a s) = withAside a (failWrite c s) := by
  simp only [failWrite, withAside_ite, enterError_withAside, withAside_state]

theorem encoderPhase_withAside : encoderPhase (withAside a s) = withAside a (encoderPhase s) := by
  simp only [encoderPhase, withAside_ite]
  rfl

variable {a s} in
/-- The transmit step reads the source. -/
theorem transmitByte_withAside (h : a.SameSource s) : transmitByte (withAside a s) = withAside a (transmitByte s) := by
  obtain ⟨hh, hw, hc, hm⟩ := h
  have hbyte : encByte (withAside a s) s.xferCount.toNat = encByte s s.xferCount.toNat := by
    have hsource : withAside a s = { withAside a s with
        srcH := s.srcH, srcW := s.srcW, srcC := s.srcC, srcBuf := s.srcBuf } := by
      rw [← hh, ← hw, ← hc, ← hm]
      rfl
    rw [hsource]
    rfl
  simp only [transmitByte, withAside_ite, withAside_xferCount, hbyte]
  rfl

end

/-! PEND: the first byte of an RGB565 pixel replaces it, the second reads it. -/

/-- PEND holds half a pixel (10_state.md R29). -/
def MidPixel (s : State) : Prop := s.state = .reading ∧ s.reqFmt = 2 ∧ s.xferCount.toNat % 2 = 1

/-- What phase 3 leaves of withAside a s, told from what it leaves of s: a again, but for PEND, which is as in s if it was
so before. -/
def PassedBy (a : Aside) (s t t' : State) : Prop :=
  ∃ p, t' = withAside { a with pend := p } t ∧ (a.pend = s.pend → p = t.pend)

/-- An operation that commutes with every aside passes it by. -/
theorem passedBy_of_commutes {f : State → State} (h : ∀ a s, f (withAside a s) = withAside a (f s)) (a : Aside)
    (s : State) : PassedBy a s (f s) (f (withAside a s)) := by
  refine ⟨a.pend, h a s, fun hp => hp.trans ?_⟩
  have hsame : (asideOf (f s)).pend = s.pend := by
    rw [← withAside_asideOf s, h, asideOf_withAside, withAside_asideOf]
    rfl
  exact hsame.symm

theorem decodeAdvance_pend (s : State) : (decodeAdvance s).pend = s.pend := by
  rcases decodeAdvance_cases s with ⟨-, e⟩ | ⟨-, e⟩ <;> exact (congrArg State.pend e).trans rfl

theorem transmitByte_pend (s : State) : (transmitByte s).pend = s.pend := by
  rcases transmitByte_cases s with ⟨-, e⟩ | ⟨-, e⟩ <;> exact (congrArg State.pend e).trans rfl

theorem readPackedByte_passedBy (b : Byte) {a : Aside} {s : State}
    (h : a.pend = s.pend ∨ s.xferCount.toNat % 2 ≠ 1) :
    PassedBy a s (readPackedByte b s) (readPackedByte b (withAside a s)) := by
  rcases readPackedByte_cases b s with ⟨heven, e⟩ | ⟨hodd, e⟩ <;>
    rcases readPackedByte_cases b (withAside a s) with ⟨heven', e'⟩ | ⟨hodd', e'⟩ <;> rw [e, e']
  · refine ⟨b, ?_, fun _ => by rw [decodeAdvance_pend]⟩
    rw [← decodeAdvance_withAside]
    rfl
  · rw [withAside_xferCount] at hodd'
    omega
  · rw [withAside_xferCount] at heven'
    omega
  · have hp : a.pend = s.pend := h.resolve_right fun hno => hno hodd
    refine ⟨a.pend, ?_, fun _ => by rw [decodeAdvance_pend, hp]⟩
    rw [← decodeAdvance_withAside, ← hp]
    rfl

theorem receiveStep_passedBy (b : Byte) {a : Aside} {s : State} (h : a.pend = s.pend ∨ ¬MidPixel s) :
    PassedBy a s (receiveStep b s) (receiveStep b (withAside a s)) := by
  unfold receiveStep
  by_cases hread : s.state = .reading ∧ s.reqFmt ≠ 0
  · rw [if_pos hread, withAside_state, withAside_reqFmt, if_pos hread]
    unfold payloadByte
    by_cases hf : s.reqFmt = 2
    · rw [if_pos hf, withAside_reqFmt, if_pos hf]
      exact readPackedByte_passedBy b (h.imp_right fun hno hodd => hno ⟨hread.1, hf, hodd⟩)
    · rw [if_neg hf, withAside_reqFmt, if_neg hf]
      exact passedBy_of_commutes (fun a s => readPlainByte_withAside a s b) a s
  · rw [if_neg hread, withAside_state, withAside_reqFmt, if_neg hread]
    exact passedBy_of_commutes (fun a s => plainByte_withAside a s b) a s

/-- Passing by, one operation after the other. -/
theorem PassedBy.trans {a : Aside} {s t t' : State} {f : State → State}
    (h : PassedBy a s t t') (hf : ∀ a s, f (withAside a s) = withAside a (f s)) : PassedBy a s (f t) (f t') := by
  obtain ⟨p, rfl, hp⟩ := h
  obtain ⟨q, e, hq⟩ := passedBy_of_commutes hf { a with pend := p } t
  exact ⟨q, e, fun h => hq (hp h)⟩

/-- Phase 3 passes a by, where a and s hold the same source in WRITING and the same half pixel. -/
theorem streamStep_passedBy {s0 : EngineState} (idx0 : Fin 6) (c : CycleIn) {o : PortOut} {a : Aside} {s : State}
    (htx : o.tx.isSome = true → s0 = .writing) (hsource : s0 = .writing → a.SameSource s)
    (hpend : a.pend = s.pend ∨ ¬(s0 = .reading ∧ MidPixel s)) :
    PassedBy a s (streamStep s0 idx0 c o s) (streamStep s0 idx0 c o (withAside a s)) := by
  have hid : PassedBy a s s (withAside a s) := passedBy_of_commutes (f := id) (fun _ _ => rfl) a s
  by_cases hs : s.state = s0
  case neg => rwa [streamStep_of_changed _ _ _ hs, streamStep_of_changed _ _ _ (s := withAside a s) hs]
  rw [streamStep_of_same _ _ _ hs, streamStep_of_same _ _ _ (s := withAside a s) hs]
  have hfail : ∀ a u, failStep s0 c (withAside a u) = withAside a (failStep s0 c u) := fun a u => by
    simp only [failStep, withAside_ite, failWrite_withAside]
  by_cases hsend : (o.tx.isSome && c.txReady) = true
  · have hw := htx (Bool.and_eq_true_iff.mp hsend).1
    rw [expire_receiveOffered_writing _ hw hs, expire_receiveOffered_writing _ hw (s := withAside a s) hs, sendTaken,
      sendTaken, if_pos hsend, if_pos hsend, transmitByte_withAside (hsource hw)]
    exact PassedBy.trans ⟨a.pend, rfl, fun hp => hp.trans (transmitByte_pend s).symm⟩ hfail
  · have hnone : ∀ u, sendTaken c o u = u := fun u => if_neg hsend
    have hexpire : ∀ a u, expire s0 idx0 c o (withAside a u) = withAside a (expire s0 idx0 c o u) := fun a u => by
      simp only [expire, withAside_ite, timeoutStep_withAside, withAside_state]
    have hreceive : PassedBy a s (receiveOffered c o s) (receiveOffered c o (withAside a s)) := by
      unfold receiveOffered
      split
      · exact receiveStep_passedBy _ (hpend.imp_right fun hno hmid => hno ⟨hs.symm.trans hmid.1, hmid⟩)
      · exact hid
    rw [hnone, hnone]
    exact (hreceive.trans hexpire).trans hfail

/-- Of what it passes by phase 3 writes PEND alone. -/
theorem asideOf_streamStep {s0 : EngineState} (idx0 : Fin 6) (c : CycleIn) {o : PortOut} (s : State)
    (htx : o.tx.isSome = true → s0 = .writing) :
    asideOf (streamStep s0 idx0 c o s) = { asideOf s with pend := (streamStep s0 idx0 c o s).pend } := by
  obtain ⟨p, e, hp⟩ := streamStep_passedBy idx0 c (a := asideOf s) htx (fun _ => ⟨rfl, rfl, rfl, rfl⟩) (.inl rfl)
  rw [withAside_asideOf] at e
  rw [← hp rfl]
  exact congrArg asideOf e

end Sys2Proof.Proofs

namespace Sys2Proof.Proofs

open Sys2Proof.Machine Sys2Proof.Laws

/-! ### A cycle without a bus write

What the host writes in a cycle is told against the same cycle without the write, so this cycle comes first, as a function
of the state and the ports. -/

/-- Phase 1. -/
def linkStep (c : CycleIn) (s : State) : State :=
  if c.linkUp = false ∧ (s.linkQ = true ∨ s.state ≠ .idle) then enterError .linkFatal s else s

theorem linkPhase_eq_linkStep (c : CycleIn) (o : PortOut) (s : State) :
    linkPhase (withPorts c o s) = withPorts c o (linkStep c s) := by
  simp only [linkPhase, linkStep, withPorts_ite, enterError_withPorts]
  rfl

theorem linkStep_of_up {c : CycleIn} (h : c.linkUp = true) (s : State) : linkStep c s = s :=
  if_neg fun ⟨hdown, _⟩ => nomatch h.symm.trans hdown

theorem linkStep_withAside (c : CycleIn) (a : Aside) (s : State) :
    linkStep c (withAside a s) = withAside a (linkStep c s) := by
  simp only [linkStep, withAside_ite, enterError_withAside]
  rfl

/-- What phases 1 and 3 make of s in a cycle without a bus write, but for the ports. -/
def unwritten (s : State) (c : CycleIn) (r : List CycleIn) : State :=
  streamStep s.state s.hdrIdx c (outputs s c) (linkStep c (sampled s r))

theorem step_unwritten {s : State} {c : CycleIn} (r : List CycleIn) (hr : c.rst = false)
    (hno : (c.busEn && c.busWe) = false) :
    step (s.fed (c :: r)) =
      .next (commit (encoderPhase (withPorts c (outputs s c) (unwritten s c r)))) := by
  refine step_of_busPhase hr ?_
  rw [linkPhase_eq_linkStep]
  exact busPhase_of_noWrite _ hno

/-! ### Link loss and the quiet cycle -/

/-- A cycle in which nothing reaches the byte ports leaves phase 3 nothing to do. -/
theorem streamStep_noEvent {s u : State} {c : CycleIn} (hu : u.state = s.state)
    (hrx : ¬(c.rxValid = true ∧ rxReady s c = true)) (htx : ¬(txValid s c = true ∧ c.txReady = true))
    (hto : (s.state = .hdr ∨ s.state = .reading) → c.rxTimeout = false) (hfail : s.state = .writing → c.txFail = false) :
    streamStep s.state s.hdrIdx c (outputs s c) u = u := by
  have hreceive : receiveOffered c (outputs s c) u = u :=
    if_neg fun h => hrx (by rwa [Bool.and_eq_true, outputs_rxReady] at h)
  have hexpire : expire s.state s.hdrIdx c (outputs s c) u = u := by
    by_cases hused : s.state = .hdr ∨ s.state = .reading
    · exact if_neg fun ⟨h, _⟩ => nomatch (hto hused).symm.trans h
    · exact expire_of_unused c u _ _ (fun h => hused (.inl h)) fun h => hused (.inr h)
  have hsend : sendTaken c (outputs s c) u = u := by
    refine if_neg fun h => htx ?_
    rw [Bool.and_eq_true, outputs_tx] at h
    obtain ⟨hsome, hready⟩ := h
    refine ⟨?_, hready⟩
    by_contra hno
    rw [if_neg hno] at hsome
    exact nomatch hsome
  have hkeep : failStep s.state c u = u := by
    unfold failStep
    split
    · next hs => exact failWrite_of_none (hfail hs) u
    · rfl
  rw [streamStep_of_same _ _ _ hu, hreceive, hexpire, hsend, hkeep]

/-- LINK_Q follows the link in every cycle without reset (10_state.md R36). -/
theorem linkQ_of_cycleResult {s t : State} {c : CycleIn} {r : List CycleIn} (hr : c.rst = false)
    (ht : CycleResult s c r t) : t.linkQ = c.linkUp := by
  have hencoder : ∀ u, (commit (encoderPhase (withPorts c (outputs s c) u))).linkQ = c.linkUp := fun u => by
    rw [commit_linkQ, encoderPhase_inp, withPorts_inp]
  cases ht with
  | reset h => exact nomatch hr.symm.trans h
  | command hc hw hacc hu => exact hencoder _
  | writing hc hs => exact hencoder _
  | _ => rfl

/-- Where the host clears no interrupt, IRQ_STATUS keeps all it holds. -/
theorem committedIrq_zero (status set : BitVec 7) : committedIrq status set 0 = status ||| set := by
  have hnot : ~~~(0 : BitVec 7) = BitVec.allOnes 7 := rfl
  rw [committedIrq, hnot, BitVec.and_allOnes]

theorem commit_of_noClear {s : State} (h : s.irqClear = 0) :
    commit s = { s with irqStatus := s.irqStatus ||| s.irqSet, irqSet := 0, irqClear := 0, linkQ := s.inp.linkUp } := by
  rw [commit, h, committedIrq_zero]

theorem commit_of_noInterrupt {s : State} (hset : s.irqSet = 0) (hclear : s.irqClear = 0) :
    commit s = { s with irqSet := 0, irqClear := 0, linkQ := s.inp.linkUp } := by
  have hkeep : s.irqStatus ||| s.irqSet = s.irqStatus := by
    rw [hset]
    exact BitVec.or_zero
  rw [commit_of_noClear hclear, hkeep]

/-- Settles O46: the link decides phase 1; after a link loss, and in a cycle without events, phase 3 does nothing. -/
theorem linkLossIsFatal : Obligations.LinkLossIsFatal := by
  unfold Obligations.LinkLossIsFatal
  intro s c r hr
  refine ⟨fun hdown hen => ?_, ?_, fun hup hwrite hrx htx hto hfail => ?_⟩
  · have hstep := step_unwritten (s := s) r hr (by rw [hen, Bool.false_and])
    refine ⟨fun hlost => ?_, fun hq hs => ?_⟩
    · have hlink : linkStep c (sampled s r) = { sampled s r with
          errCode := .linkFatal, irqSet := 0x20, reqValid := false, encRdy := false, seenM0 := false, hdrIdx := 0,
          state := .idle } := by
        have hset : (sampled s r).irqSet ||| 0x20 = 0x20 := BitVec.zero_or
        rw [linkStep, if_pos ⟨hdown, hlost⟩, enterError_linkFatal, hset]
      rw [hstep, unwritten, hlink, streamStep_linkDown hdown rfl, encoderPhase_of_notWriting (by exact nofun)]
      exact congrArg Host.Outcome.next ((commit_of_noClear rfl).trans rfl)
    · have hlink : linkStep c (sampled s r) = sampled s r := if_neg fun ⟨_, h⟩ =>
        h.elim (fun h => nomatch hq.symm.trans h) fun h => h hs
      have hidle : (withPorts c (outputs s c) (sampled s r)).state ≠ .writing := fun h => nomatch hs.symm.trans h
      have hkeep : streamStep s.state s.hdrIdx c (outputs s c) (sampled s r) = sampled s r := streamStep_linkDown hdown hs
      rw [hstep, unwritten, hlink, hkeep, encoderPhase_of_notWriting hidle]
      exact congrArg Host.Outcome.next ((commit_of_noInterrupt rfl rfl).trans rfl)
  · obtain ⟨t, ht, -, -⟩ := step_answers (s.fed (c :: r))
    exact ⟨t, ht, linkQ_of_cycleResult hr (cycleResult_of_step_fed ht)⟩
  · have hno : (c.busEn && c.busWe) = false := by
      rw [← Bool.not_eq_true, Bool.and_eq_true]
      exact hwrite
    have hkeep : streamStep s.state s.hdrIdx c (outputs s c) (sampled s r) = sampled s r :=
      streamStep_noEvent rfl hrx htx hto hfail
    rw [step_unwritten r hr hno, unwritten, linkStep_of_up hup, hkeep]
    rcases encoderPhase_cases (withPorts c (outputs s c) (sampled s r)) with ⟨hs, hrdy, e⟩ | ⟨hno, e⟩ <;> rw [e]
    · have hdraws : s.state = .writing ∧ s.encRdy = false := ⟨hs, hrdy⟩
      rw [if_pos hdraws]
      exact congrArg Host.Outcome.next ((commit_of_noInterrupt rfl rfl).trans rfl)
    · have hkeeps : ¬(s.state = .writing ∧ s.encRdy = false) := hno
      rw [if_neg hkeeps]
      exact congrArg Host.Outcome.next ((commit_of_noInterrupt rfl rfl).trans rfl)

end Sys2Proof.Proofs

namespace Sys2Proof.Proofs

open Sys2Proof.Machine Sys2Proof.Laws

/-! ### A cycle with a data write -/

/-- A data write changes the asides alone. -/
theorem dataWrite_eq_withAside (s0 : EngineState) (w32 : Bool) (a v : Word) (s : State) :
    dataWrite s0 w32 a v s = withAside (asideOf (dataWrite s0 w32 a v s)) s := by
  obtain ⟨_, _, _, _, _, _, e, -, -⟩ := dataWrite_effect s0 w32 a v s
  rw [e]
  rfl

/-- Of the state it acts on a data write reads IRQ_CLEAR, SRC_BUF and BUF_BYTES only, and it writes neither IRQ_STATUS nor
PEND. -/
theorem asideOf_dataWrite_congr (s0 : EngineState) (w32 : Bool) (a v : Word) {s t : State} {q : BitVec 7} {p : Byte}
    (hn : s.bufBytes = t.bufBytes) (h : asideOf s = { asideOf t with irqStatus := q, pend := p }) :
    asideOf (dataWrite s0 w32 a v s) = { asideOf (dataWrite s0 w32 a v t) with irqStatus := q, pend := p } := by
  have hs : s = withAside { asideOf t with irqStatus := q, pend := p } s := by
    rw [← h, withAside_asideOf]
  rw [hs]
  unfold dataWrite
  simp only [show (withAside { asideOf t with irqStatus := q, pend := p } s).bufBytes = t.bufBytes from hn]
  by_cases hw : s0 = .writing <;> simp only [hw, if_true, if_false]
  all_goals
    repeat' split
    all_goals rfl

theorem dataWrite_keeps (s0 : EngineState) (w32 : Bool) (a v : Word) (s : State) :
    (asideOf (dataWrite s0 w32 a v s)).irqStatus = s.irqStatus ∧ (asideOf (dataWrite s0 w32 a v s)).pend = s.pend ∧
      (s0 = .writing → (asideOf (dataWrite s0 w32 a v s)).SameSource s) := by
  obtain ⟨_, _, _, _, _, _, e, hkeep, -⟩ := dataWrite_effect s0 w32 a v s
  rw [e]
  exact ⟨rfl, rfl, hkeep⟩

/-- Phase 3 may run before the data write. -/
theorem streamStep_dataWrite {s0 : EngineState} (idx0 : Fin 6) (c : CycleIn) {o : PortOut} (w32 : Bool) (a v : Word)
    (s : State) (htx : o.tx.isSome = true → s0 = .writing) (hn : (streamStep s0 idx0 c o s).bufBytes = s.bufBytes) :
    streamStep s0 idx0 c o (dataWrite s0 w32 a v s) = dataWrite s0 w32 a v (streamStep s0 idx0 c o s) := by
  obtain ⟨hstatus, hpend, hsource⟩ := dataWrite_keeps s0 w32 a v s
  obtain ⟨p, e, hp⟩ := streamStep_passedBy idx0 c htx hsource (.inl hpend)
  have hsame : (asideOf (dataWrite s0 w32 a v s)).irqStatus = (asideOf s).irqStatus := hstatus
  rw [dataWrite_eq_withAside s0 w32 a v s, e, dataWrite_eq_withAside s0 w32 a v (streamStep s0 idx0 c o s),
    asideOf_dataWrite_congr s0 w32 a v hn (asideOf_streamStep idx0 c s htx), hp hpend, ← hsame]

theorem encoderPhase_dataWrite (s0 : EngineState) (w32 : Bool) (a v : Word) (s : State) :
    encoderPhase (dataWrite s0 w32 a v s) = dataWrite s0 w32 a v (encoderPhase s) := by
  obtain ⟨rdy, e⟩ := encoderPhase_eq_encRdy s
  have haside : asideOf (dataWrite s0 w32 a v (encoderPhase s)) = asideOf (dataWrite s0 w32 a v s) := by
    obtain ⟨hstatus, hpend, -⟩ := dataWrite_keeps s0 w32 a v s
    rw [e, asideOf_dataWrite_congr s0 w32 a v (t := s) rfl (s := { s with encRdy := rdy }) rfl, ← hstatus, ← hpend]
  rw [dataWrite_eq_withAside s0 w32 a v s, encoderPhase_withAside, ← haside, ← dataWrite_eq_withAside]

/-- What phases 1, 3 and 4 make of s in a cycle without a bus write, but for the ports. -/
def uncommitted (s : State) (c : CycleIn) (r : List CycleIn) : State :=
  encoderPhase (withPorts c (outputs s c) (unwritten s c r))

theorem step_uncommitted {s : State} {c : CycleIn} (r : List CycleIn) (hr : c.rst = false)
    (hno : (c.busEn && c.busWe) = false) : step (s.fed (c :: r)) = .next (commit (uncommitted s c r)) :=
  step_unwritten r hr hno

theorem unwritten_bufBytes {s : State} {c : CycleIn} (r : List CycleIn) (hr : c.rst = false)
    (hno : (c.busEn && c.busWe) = false) : (unwritten s c r).bufBytes = s.bufBytes := by
  have hcommit : (commit (uncommitted s c r)).bufBytes = s.bufBytes :=
    bufBytes_of_cycleResult (cycleResult_of_step_fed (step_uncommitted r hr hno))
  have hencoder : source (uncommitted s c r) = source (unwritten s c r) := (encoderPhase_keeps _).2
  exact (congrArg (fun p => p.2.2.2.2) hencoder).symm.trans hcommit

theorem outputs_tx_writing {s : State} {c : CycleIn} (h : (outputs s c).tx.isSome = true) : s.state = .writing := by
  by_contra hno
  rw [tx_none_of_notWriting c hno] at h
  exact nomatch h

theorem linkStep_eq (c : CycleIn) (s : State) :
    linkStep c s = s ∨ linkStep c s = enterError .linkFatal s := by
  unfold linkStep
  split
  · exact .inr rfl
  · exact .inl rfl

theorem asideOf_linkStep (s : State) (c : CycleIn) (r : List CycleIn) :
    asideOf (linkStep c (sampled s r)) = { asideOf s with irqClear := 0 } := by
  rcases linkStep_eq c (sampled s r) with e | e <;> rw [e] <;> rfl

/-- Without a bus write phase 3 alone writes what phase 3 passes by, and of that PEND alone. -/
theorem asideOf_unwritten (s : State) (c : CycleIn) (r : List CycleIn) :
    asideOf (unwritten s c r) = { asideOf s with irqClear := 0, pend := (unwritten s c r).pend } := by
  have hstream := asideOf_streamStep s.hdrIdx c (s0 := s.state) (linkStep c (sampled s r)) (outputs_tx_writing (c := c))
  rwa [asideOf_linkStep] at hstream

theorem asideOf_uncommitted (s : State) (c : CycleIn) (r : List CycleIn) :
    asideOf (uncommitted s c r) = { asideOf s with irqClear := 0, pend := (uncommitted s c r).pend } := by
  obtain ⟨_, e⟩ := encoderPhase_eq_encRdy (withPorts c (outputs s c) (unwritten s c r))
  rw [uncommitted, e]
  exact asideOf_unwritten s c r

theorem outputs_dataWrite {s : State} {c : CycleIn} {w32 : Bool} {a : Word} (v : Word) (hen : c.busEn = false)
    (hdata : (w32 && a == 0) = false) : outputs s (withAccess c true w32 a v) = outputs s c := by
  have hno : cancelNow s (withAccess c true w32 a v) = false := by
    have hwrites : writesCmd (withAccess c true w32 a v) = false := by
      simp only [writesCmd, withAccess, Bool.and_self, Bool.true_and, hdata]
    exact Bool.eq_false_iff.mpr fun h => by
      obtain ⟨hcancel, -⟩ := cancelNow_iff.mp h
      obtain ⟨h, -⟩ := hostCommand_eq_some.mp hcancel
      exact nomatch hwrites.symm.trans h
  have hrx : rxReady s (withAccess c true w32 a v) = rxReady s c := by
    rw [rxReady, hno, rxReady, cancelNow_of_noWrite s (by rw [hen, Bool.false_and])]
    rfl
  have hbus : busRdata s (withAccess c true w32 a v) = busRdata s c := by
    rw [busRdata_of_noRead s (by rw [hen, Bool.false_and] : (c.busEn && !c.busWe) = false), busRdata_of_noRead s rfl]
  rw [outputs, hrx, hbus]
  rfl

/-- The cycle with a data write ends as the write on what the cycle without it ends in, before the commit. -/
theorem step_dataWrite {s : State} {c : CycleIn} (r : List CycleIn) {w32 : Bool} {a : Word} (v : Word)
    (hr : c.rst = false) (hen : c.busEn = false) (hdata : (w32 && a == 0) = false) :
    step (s.fed (c :: r)) = .next (commit (uncommitted s c r)) ∧
    step (s.fed (withAccess c true w32 a v :: r)) =
      .next { commit (dataWrite s.state w32 a v (uncommitted s c r)) with inp := withAccess c true w32 a v } := by
  have hwithout : step (s.fed (c :: r)) = .next (commit (uncommitted s c r)) :=
    step_unwritten r hr (by rw [hen, Bool.false_and])
  refine ⟨hwithout, ?_⟩
  have hn : (unwritten s c r).bufBytes = (linkStep c (sampled s r)).bufBytes := by
    rw [unwritten_bufBytes r hr (by rw [hen, Bool.false_and])]
    rcases linkStep_eq c (sampled s r) with e | e <;> rw [e] <;> rfl
  have hbus : busPhase s.state (linkPhase (withPorts (withAccess c true w32 a v) (outputs s c) (sampled s r))) =
      .next (withPorts (withAccess c true w32 a v) (outputs s c) (dataWrite s.state w32 a v (linkStep c (sampled s r)))) := by
    rw [linkPhase_eq_linkStep]
    simp only [busPhase, withPorts_inp, withAccess, Bool.and_self, if_true, hdata, Bool.false_eq_true, if_false,
      dataWrite_withPorts]
    rfl
  have hout := outputs_dataWrite (s := s) v hen hdata
  have hstep := step_of_busPhase (s := s) (c := withAccess c true w32 a v) (r := r) hr (by rw [hout]; exact hbus)
  have hstream : streamStep s.state s.hdrIdx (withAccess c true w32 a v) (outputs s c)
      (dataWrite s.state w32 a v (linkStep c (sampled s r))) = dataWrite s.state w32 a v (unwritten s c r) :=
    streamStep_dataWrite s.hdrIdx c w32 a v _ outputs_tx_writing hn
  have hcommit : commit (encoderPhase (withPorts (withAccess c true w32 a v) (outputs s c)
        (dataWrite s.state w32 a v (unwritten s c r)))) =
      { commit (dataWrite s.state w32 a v (uncommitted s c r)) with inp := withAccess c true w32 a v } := by
    rw [commit_encoderPhase_sameLink (c := c) (d := withAccess c true w32 a v) _ _ rfl rfl, ← dataWrite_withPorts,
      encoderPhase_dataWrite, ← uncommitted]
  rw [hstep, hout, hstream, hcommit]

theorem uncommitted_bufBytes {s : State} {c : CycleIn} (r : List CycleIn) (hr : c.rst = false) (hen : c.busEn = false) :
    (uncommitted s c r).bufBytes = s.bufBytes := by
  have hstep := step_uncommitted (s := s) r hr (by rw [hen, Bool.false_and] : (c.busEn && c.busWe) = false)
  exact (commit_bufBytes _).symm.trans (bufBytes_of_cycleResult (cycleResult_of_step_fed hstep))

/-- The cycle c makes u of s before the commit, and with a data write the write on u. -/
structure DataCycle (s : State) (c : CycleIn) (r : List CycleIn) (u : State) : Prop where
  aside : asideOf u = { asideOf s with irqClear := 0, pend := u.pend }
  bufBytes : u.bufBytes = s.bufBytes
  without : step (s.fed (c :: r)) = .next (commit u)
  withWrite (w32 : Bool) (a v : Word) (hdata : (w32 && a == 0) = false) :
    step (s.fed (withAccess c true w32 a v :: r)) =
      .next { commit (dataWrite s.state w32 a v u) with inp := withAccess c true w32 a v }

theorem dataCycle {c : CycleIn} (s : State) (r : List CycleIn) (hr : c.rst = false) (hen : c.busEn = false) :
    ∃ u, DataCycle s c r u :=
  ⟨uncommitted s c r, asideOf_uncommitted s c r, uncommitted_bufBytes r hr hen,
    step_uncommitted r hr (by rw [hen, Bool.false_and]), fun _ _ v hdata => (step_dataWrite r v hr hen hdata).2⟩

/-- A data write that changes nothing leaves no trace but the record of the inputs. -/
theorem DataCycle.ignores {s u : State} {c : CycleIn} {r : List CycleIn} (h : DataCycle s c r u) {w32 : Bool} {a : Word}
    (v : Word) (hdata : (w32 && a == 0) = false) (hignored : dataWrite s.state w32 a v u = u) :
    step (s.fed (withAccess c true w32 a v :: r)) = .next { commit u with inp := withAccess c true w32 a v } := by
  rw [h.withWrite w32 a v hdata, hignored]

theorem DataCycle.srcBuf {s u : State} {c : CycleIn} {r : List CycleIn} (h : DataCycle s c r u) : u.srcBuf = s.srcBuf :=
  congrArg Aside.srcBuf h.aside

end Sys2Proof.Proofs

namespace Sys2Proof.Proofs

open Sys2Proof.Machine Sys2Proof.Laws

/-! ### The SRC window -/

theorem busValue_src {s : State} {w32 : Bool} {a : Word} {i : Nat} (h : regionOf a = .src i) :
    busValue s w32 a = windowRead s .src w32 i := by
  rw [busValue, h]

theorem busValue_dst {s : State} {w32 : Bool} {a : Word} {i : Nat} (h : regionOf a = .dst i) :
    busValue s w32 a = windowRead s .dst w32 i := by
  rw [busValue, h]

/-- Byte k of a word, lowest first. -/
def byteOf (v : Word) (k : Nat) : Byte := v.extractLsb' (8 * k) 8

/-- The bytes of a word, lowest first. -/
def wordBytes (v : Word) : List Byte := [byteOf v 0, byteOf v 1, byteOf v 2, byteOf v 3]

theorem wordBytes_getElem? (v : Word) {k : Nat} (h : k < 4) : (wordBytes v)[k]? = some (byteOf v k) := by
  match k, h with
  | 0, _ | 1, _ | 2, _ | 3, _ => rfl

theorem append_wordBytes (v : Word) : byteOf v 3 ++ byteOf v 2 ++ byteOf v 1 ++ byteOf v 0 = v := by
  apply BitVec.eq_of_getLsbD_eq
  intro i hi
  simp only [byteOf, BitVec.getLsbD_append, BitVec.getLsbD_extractLsb']
  grind

section
variable {s0 : EngineState} {a v : Word} {i : Nat} {s : State}

theorem dataWrite_src_locked (w32 : Bool) (h : regionOf a = .src i) (hs0 : s0 = .writing) :
    dataWrite s0 w32 a v s = s := by
  simp only [dataWrite, h, if_pos hs0]

theorem dataWrite_src_misaligned (h : regionOf a = .src i) (hi : i % 4 ≠ 0) : dataWrite s0 true a v s = s := by
  simp only [dataWrite, h, if_neg hi, if_true, ite_self]

theorem dataWrite_src_byte (h : regionOf a = .src i) (hs0 : s0 ≠ .writing) :
    dataWrite s0 false a v s = { s with srcBuf := storeBytes s.bufBytes s.srcBuf i [byteOf v 0] } := by
  simp only [dataWrite, h, if_neg hs0, Bool.false_eq_true, if_false]
  rfl

theorem dataWrite_src_word (h : regionOf a = .src i) (hs0 : s0 ≠ .writing) (hi : i % 4 = 0) :
    dataWrite s0 true a v s = { s with srcBuf := storeBytes s.bufBytes s.srcBuf i (wordBytes v) } := by
  simp only [dataWrite, h, if_neg hs0, if_true, if_pos hi]
  rfl

end

theorem read_store_byte (n : Nat) (m : Memory) (i k : Nat) (v : Word) :
    Memory.read (storeBytes n m i [byteOf v 0]) k =
      if k = i ∧ k < n then some (v.extractLsb' 0 8) else Memory.read m k := by
  rw [read_storeBytes]
  by_cases h : k = i ∧ k < n
  · obtain ⟨rfl, hn⟩ := h
    rw [if_pos ⟨le_rfl, by simp, hn⟩, if_pos ⟨rfl, hn⟩, Nat.sub_self]
    rfl
  · rw [if_neg h, if_neg]
    simp only [List.length_singleton]
    omega

theorem read_store_word (n : Nat) (m : Memory) (i k : Nat) (v : Word) :
    Memory.read (storeBytes n m i (wordBytes v)) k =
      if i ≤ k ∧ k < i + 4 ∧ k < n then some (v.extractLsb' (8 * (k - i)) 8) else Memory.read m k := by
  rw [read_storeBytes]
  have hlength : (wordBytes v).length = 4 := rfl
  rw [hlength]
  split
  · exact wordBytes_getElem? v (by omega)
  · rfl

/-- A whole word reads back. -/
theorem windowRead_store_word {s : State} {i : Nat} {v : Word} (hi : i % 4 = 0) (hn : i + 3 < s.bufBytes) :
    windowRead { s with srcBuf := storeBytes s.bufBytes s.srcBuf i (wordBytes v) } .src true i = v := by
  have hbyte : ∀ k < 4, windowByte { s with srcBuf := storeBytes s.bufBytes s.srcBuf i (wordBytes v) } .src (i + k) =
      byteOf v k := fun k hk => by
    have hread : Memory.read (storeBytes s.bufBytes s.srcBuf i (wordBytes v)) (i + k) = some (byteOf v k) := by
      rw [read_store_word, if_pos ⟨by omega, by omega, by omega⟩, Nat.add_sub_cancel_left]
      rfl
    rw [windowByte, if_pos (by exact (by omega : i + k < s.bufBytes)), State.bufferByte, State.buffer, hread]
    rfl
  have hlow := hbyte 0 (by omega)
  rw [Nat.add_zero] at hlow
  rw [windowRead, if_pos rfl, if_pos hi, hbyte 3 (by omega), hbyte 2 (by omega), hbyte 1 (by omega), hlow,
    append_wordBytes]

theorem commit_srcBuf_update (m : Memory) (s : State) : commit { s with srcBuf := m } = { commit s with srcBuf := m } :=
  rfl

theorem ne_zero_of_window {a : Word} {w32 : Bool} (h : 0x02000000 ≤ a.toNat) : (w32 && a == 0) = false := by
  have hne : (a == 0) = false := beq_eq_false_iff_ne.mpr fun e => by
    rw [e] at h
    exact absurd h (by decide)
  rw [hne, Bool.and_false]

/-- Settles O34: the write by its case of R60, then the cycle with it as the write on what the cycle without it makes. -/
theorem sourceWindowWrite : Obligations.SourceWindowWrite := by
  unfold Obligations.SourceWindowWrite
  refine ⟨fun s0 a v i s h => ⟨fun hs0 w32 => dataWrite_src_locked w32 h hs0, dataWrite_src_misaligned h,
    fun hs0 => ⟨_, dataWrite_src_byte h hs0, fun k => read_store_byte _ _ i k v⟩,
    fun hs0 hi => ⟨_, dataWrite_src_word h hs0 hi, fun k => read_store_word _ _ i k v, fun hn => ?_⟩⟩,
    fun s c r a v hr hen hlow hhigh => ?_⟩
  · rw [busValue_src h, windowRead_store_word hi hn]
  · have h := regionOf_src hlow hhigh
    have hdata : ∀ w32, (w32 && a == 0) = false := fun w32 => ne_zero_of_window hlow
    have halign : (a.toNat - 0x02000000) % 4 = a.toNat % 4 := by omega
    obtain ⟨u, hu⟩ := dataCycle s r hr hen
    refine ⟨_, hu.without, fun hs w32 => ?locked, fun hi => ?misaligned, fun hs => ?byte, fun hs hi => ?word⟩
    case locked => exact hu.ignores v (hdata w32) (dataWrite_src_locked w32 h hs)
    case misaligned => exact hu.ignores v (hdata true) (dataWrite_src_misaligned h (by omega))
    case byte =>
      have hwith := hu.withWrite false a v (hdata false)
      rw [dataWrite_src_byte h hs, commit_srcBuf_update] at hwith
      refine ⟨storeBytes u.bufBytes u.srcBuf _ [byteOf v 0], hwith, fun k => ?_⟩
      rw [read_store_byte, hu.bufBytes, hu.srcBuf]
    case word =>
      have hwith := hu.withWrite true a v (hdata true)
      rw [dataWrite_src_word h hs (by omega), commit_srcBuf_update] at hwith
      refine ⟨storeBytes u.bufBytes u.srcBuf _ (wordBytes v), hwith,
        fun k => by rw [read_store_word, hu.bufBytes, hu.srcBuf], fun hn => ?_⟩
      rw [busValue_src h]
      exact windowRead_store_word (s := commit u) (by omega) (by rw [commit_bufBytes, hu.bufBytes]; exact hn)

/-! ### Writes that nothing takes -/

theorem dataWrite_of_ignored {s0 : EngineState} {w32 : Bool} {a : Word} (v : Word) (h : ignoredWrite w32 a = true)
    (s : State) : dataWrite s0 w32 a v s = s := by
  unfold ignoredWrite at h
  cases hregion : regionOf a with
  | csr offset =>
    simp only [hregion, Bool.or_eq_true, Bool.not_eq_true', Bool.or_eq_false_iff, beq_eq_false_iff_ne] at h
    simp only [dataWrite, hregion]
    rcases h with rfl | ⟨⟨⟨⟨-, hstatus⟩, henable⟩, hdim⟩, hch⟩
    · rfl
    · split
      · split
        · exact absurd rfl hstatus
        · exact absurd rfl henable
        · exact absurd rfl hdim
        · exact absurd rfl hch
        · rfl
      · rfl
  | dst i => simp only [dataWrite, hregion]
  | reserved => simp only [dataWrite, hregion]
  | src i =>
    simp only [hregion, Bool.and_eq_true, bne_iff_ne] at h
    obtain ⟨rfl, hi⟩ := h
    exact dataWrite_src_misaligned hregion hi

/-- No command is among the ignored writes. -/
theorem data_of_ignored {w32 : Bool} {a : Word} (h : ignoredWrite w32 a = true) : (w32 && a == 0) = false := by
  refine Bool.eq_false_iff.mpr fun hcmd => ?_
  obtain ⟨rfl, ha⟩ := Bool.and_eq_true_iff.mp hcmd
  rw [beq_iff_eq.mp ha] at h
  exact absurd h (by decide)

/-- Settles O38: the write changes nothing, and the reset cycle does not come to it. -/
theorem ignoredWritesDoNothing : Obligations.IgnoredWritesDoNothing := by
  unfold Obligations.IgnoredWritesDoNothing
  intro s c r w32 a v hen h
  have hdata := data_of_ignored h
  by_cases hr : c.rst = true
  · refine ⟨_, step_of_rst (s := s.fed (c :: r)) hr, ?_⟩
    rw [step_of_rst (s := s.fed (withAccess c true w32 a v :: r)) hr, beginCycle_fed_eq_withPorts,
      beginCycle_fed_eq_withPorts, outputs_dataWrite v hen hdata]
    rfl
  · have hr : c.rst = false := Bool.eq_false_iff.mpr hr
    obtain ⟨u, hu⟩ := dataCycle s r hr hen
    exact ⟨_, hu.without, hu.ignores v hdata (dataWrite_of_ignored v h u)⟩

end Sys2Proof.Proofs

namespace Sys2Proof.Proofs

open Sys2Proof.Machine Sys2Proof.Laws

/-! ### The plain read-write registers -/

section
variable {s0 : EngineState} (v : Word) (s : State)

theorem dataWrite_irqEnable : dataWrite s0 true 0x30 v s = { s with irqEnable := v.setWidth 7 } := rfl

theorem dataWrite_irqStatus : dataWrite s0 true 0x2C v s = clearIrq v s := rfl

theorem dataWrite_srcDim : dataWrite s0 true 0x34 v s =
    if s0 = .writing then s else { s with srcH := v.extractLsb' 16 16, srcW := v.extractLsb' 0 16 } := rfl

theorem dataWrite_srcCh : dataWrite s0 true 0x38 v s =
    if s0 = .writing then s else { s with srcC := v.extractLsb' 0 2 } := by
  rw [← BitVec.setWidth_eq_extractLsb' (by decide)]
  rfl

end

theorem csrValue_irqEnable (s : State) : csrValue s 0x30 = 0#25 ++ s.irqEnable := rfl
theorem csrValue_srcDim (s : State) : csrValue s 0x34 = s.srcH ++ s.srcW := rfl
theorem csrValue_srcCh (s : State) : csrValue s 0x38 = 0#30 ++ s.srcC := rfl

theorem append_halves (v : Word) : v.extractLsb' 16 16 ++ v.extractLsb' 0 16 = v := by
  apply BitVec.eq_of_getLsbD_eq
  intro i hi
  simp only [BitVec.getLsbD_append, BitVec.getLsbD_extractLsb']
  grind

/-- The low n bits of a word, the others 0. -/
theorem append_zero_setWidth (n m : Nat) (v : BitVec (m + n)) :
    (0#m ++ v.setWidth n : BitVec (m + n)) = v &&& BitVec.ofNat (m + n) (2 ^ n - 1) := by
  apply BitVec.eq_of_getLsbD_eq
  intro i hi
  simp only [BitVec.getLsbD_append, BitVec.getLsbD_setWidth, BitVec.getLsbD_and,
    BitVec.getLsbD_ofNat, Nat.testBit_two_pow_sub_one]
  grind

section
variable {s u : State} {c : CycleIn} {r : List CycleIn} (h : DataCycle s c r u)
include h

theorem DataCycle.srcH : u.srcH = s.srcH := congrArg Aside.srcH h.aside
theorem DataCycle.srcW : u.srcW = s.srcW := congrArg Aside.srcW h.aside
theorem DataCycle.srcC : u.srcC = s.srcC := congrArg Aside.srcC h.aside

end

/-- Settles O39: each register's write, then the cycle with it as the write on what the cycle without it makes. -/
theorem writableRegisters : Obligations.WritableRegisters := by
  unfold Obligations.WritableRegisters
  intro s c r v hr
  refine ⟨fun hen => ?_, ?_⟩
  · obtain ⟨u, hu⟩ := dataCycle s r hr hen
    refine ⟨_, hu.without, hu.withWrite true 0x30 v rfl, fun hs => ⟨?_, ?_⟩, fun hs => ⟨?_, ?_⟩⟩
    · rw [hu.withWrite true 0x34 v rfl, dataWrite_srcDim, if_neg hs]
      rfl
    · rw [hu.withWrite true 0x38 v rfl, dataWrite_srcCh, if_neg hs]
      rfl
    · exact hu.ignores v rfl (if_pos hs)
    · exact hu.ignores v rfl (if_pos hs)
  · obtain ⟨u, hu⟩ := dataCycle (c := { c with busEn := false }) s r hr rfl
    have hwith : ∀ a : Word, (true && a == 0) = false → step (s.fed (withAccess c true true a v :: r)) =
        .next { commit (dataWrite s.state true a v u) with inp := withAccess c true true a v } := fun a =>
      hu.withWrite true a v
    refine ⟨⟨_, hwith 0x30 rfl, ?enable⟩, ⟨_, hwith 0x34 rfl, ?dim⟩, ⟨_, hwith 0x38 rfl, ?ch⟩⟩
    case enable =>
      rw [dataWrite_irqEnable, csrValue_irqEnable]
      exact append_zero_setWidth 7 25 v
    case dim =>
      by_cases hs : s.state = .writing
      · rw [dataWrite_srcDim, if_pos hs, if_pos hs, csrValue_srcDim, csrValue_srcDim, ← hu.srcH, ← hu.srcW]
        rfl
      · rw [dataWrite_srcDim, if_neg hs, if_neg hs, csrValue_srcDim]
        exact append_halves v
    case ch =>
      by_cases hs : s.state = .writing
      · rw [dataWrite_srcCh, if_pos hs, if_pos hs, csrValue_srcCh, csrValue_srcCh, ← hu.srcC]
        rfl
      · rw [dataWrite_srcCh, if_neg hs, if_neg hs, csrValue_srcCh, ← BitVec.setWidth_eq_extractLsb' (by decide)]
        exact append_zero_setWidth 2 30 v

/-! ### IRQ_STATUS -/

theorem streamStep_irqLine (s0 : EngineState) (idx0 : Fin 6) (c : CycleIn) (o : PortOut) (b : Bool) (s : State) :
    streamStep s0 idx0 c { o with irq := b } s = streamStep s0 idx0 c o s := rfl

/-- What the interrupts pending make of the outputs. -/
theorem outputs_irqStatus (s : State) (q : BitVec 7) (c : CycleIn) (h : (c.busEn && !c.busWe) = false) :
    outputs { s with irqStatus := q } c = { outputs s c with irq := irqLine { s with irqStatus := q } } := by
  have hbus : ∀ t : State, busRdata t c = 0 := fun t => busRdata_of_noRead t h
  simp only [outputs, hbus]
  rfl

/-- No phase before the commit reads IRQ_STATUS. -/
theorem uncommitted_irqStatus {c : CycleIn} (s : State) (q : BitVec 7) (r : List CycleIn)
    (h : (c.busEn && !c.busWe) = false) :
    uncommitted { s with irqStatus := q } c r =
      { uncommitted s c r with irqStatus := q, out := outputs { s with irqStatus := q } c } := by
  have hlink : linkStep c (sampled { s with irqStatus := q } r) =
      withAside { asideOf (linkStep c (sampled s r)) with irqStatus := q } (linkStep c (sampled s r)) := by
    have hsampled : sampled { s with irqStatus := q } r =
        withAside { asideOf (sampled s r) with irqStatus := q } (sampled s r) := rfl
    rw [hsampled, linkStep_withAside, asideOf_linkStep]
    rfl
  obtain ⟨p, e, hp⟩ := streamStep_passedBy (s0 := s.state) s.hdrIdx c (o := outputs s c)
    (a := { asideOf (linkStep c (sampled s r)) with irqStatus := q }) (s := linkStep c (sampled s r))
    outputs_tx_writing (fun _ => ⟨rfl, rfl, rfl, rfl⟩) (.inl rfl)
  have hpend : (unwritten s c r).pend = p := (hp rfl).symm
  have haside : asideOf (unwritten s c r) = { asideOf s with irqClear := 0, pend := p } :=
    hpend ▸ asideOf_unwritten s c r
  have hunwritten : unwritten { s with irqStatus := q } c r = { unwritten s c r with irqStatus := q } := by
    calc unwritten { s with irqStatus := q } c r
        = streamStep s.state s.hdrIdx c (outputs s c)
            (withAside { asideOf (linkStep c (sampled s r)) with irqStatus := q } (linkStep c (sampled s r))) := by
          rw [unwritten, hlink, outputs_irqStatus s q c h, streamStep_irqLine]
      _ = withAside { asideOf (unwritten s c r) with irqStatus := q } (unwritten s c r) := by
          rw [e, haside, asideOf_linkStep]
          rfl
  rcases encoderPhase_cases (withPorts c (outputs s c) (unwritten s c r)) with ⟨hs, hrdy, e⟩ | ⟨hno, e⟩ <;>
    rw [uncommitted, uncommitted, hunwritten, e]
  · exact if_pos ⟨hs, hrdy⟩
  · exact if_neg hno

/-- Where the cycle drops no pending bit but those cleared, clearing them before it does the same. -/
theorem committedIrq_clear (status set clear : BitVec 7) :
    committedIrq status set clear = committedIrq (status &&& ~~~clear) set 0 := by
  rw [committedIrq_zero, committedIrq]

theorem commit_clearIrq {u : State} (v : Word) (h : u.irqClear = 0) :
    commit (clearIrq v u) = commit { u with irqStatus := u.irqStatus &&& ~~~(v.setWidth 7) } := by
  have hstatus : committedIrq u.irqStatus u.irqSet (u.irqClear ||| v.setWidth 7) =
      committedIrq (u.irqStatus &&& ~~~(v.setWidth 7)) u.irqSet u.irqClear := by
    have hclear : 0 ||| v.setWidth 7 = v.setWidth 7 := BitVec.zero_or
    rw [h, hclear, committedIrq_clear]
  simp only [commit, clearIrq, hstatus]

theorem uncommitted_out (s : State) (c : CycleIn) (r : List CycleIn) : (uncommitted s c r).out = outputs s c := by
  obtain ⟨_, e⟩ := encoderPhase_eq_encRdy (withPorts c (outputs s c) (unwritten s c r))
  rw [uncommitted, e]
  rfl

/-- The cycle with a write of v to IRQ_STATUS, against the cycle without it from the state with the bits of v cleared. -/
theorem step_clearIrq {s : State} {c : CycleIn} (r : List CycleIn) (v : Word) (hr : c.rst = false)
    (hen : c.busEn = false) :
    ∃ t0, step (({ s with irqStatus := s.irqStatus &&& ~~~(v.setWidth 7) } : State).fed (c :: r)) = .next t0 ∧
      step (s.fed (withAccess c true true 0x2C v :: r)) = .next { t0 with
        inp := withAccess c true true 0x2C v, out := outputs s (withAccess c true true 0x2C v) } := by
  have hread : (c.busEn && !c.busWe) = false := by rw [hen, Bool.false_and]
  have haside := asideOf_uncommitted s c r
  have hstatus : (uncommitted s c r).irqStatus = s.irqStatus := congrArg Aside.irqStatus haside
  have hclear : (uncommitted s c r).irqClear = 0 := congrArg Aside.irqClear haside
  obtain ⟨-, hwith⟩ := step_dataWrite (w32 := true) (a := 0x2C) r v hr hen rfl
  refine ⟨_, step_uncommitted r hr (by rw [hen, Bool.false_and]), ?_⟩
  rw [hwith, dataWrite_irqStatus, commit_clearIrq v hclear, uncommitted_irqStatus s (s.irqStatus &&& ~~~(v.setWidth 7)) r hread,
    outputs_dataWrite v hen rfl, hstatus, ← uncommitted_out s c r]
  rfl

/-- In IDLE a cycle without a bus write keeps IRQ_STATUS. -/
theorem irqStatus_of_idle {s t : State} {c : CycleIn} {r : List CycleIn} (hc : linked c = true) (hs : s.state = .idle)
    (hen : c.busEn = false) (ht : step (s.fed (c :: r)) = .next t) : t.irqStatus = s.irqStatus := by
  obtain ⟨hup, hr⟩ := linked_iff.mp hc
  obtain ⟨-, -, hquiet⟩ := linkLossIsFatal s c r hr
  have hrx : rxReady s c = false := by simp [rxReady, hs]
  have htx : txValid s c = false := by simp [txValid, hs]
  have hstep := hquiet hup (fun h => nomatch hen.symm.trans h.1) (fun h => nomatch hrx.symm.trans h.2)
    (fun h => nomatch htx.symm.trans h.1)
    (fun h => h.elim (fun h => nomatch hs.symm.trans h) fun h => nomatch hs.symm.trans h)
    (fun h => nomatch hs.symm.trans h)
  rw [← Host.Outcome.next.inj (hstep.symm.trans ht)]
  rfl

/-- The cycle that accepts a header sets HDR. -/
theorem irqStatus_of_accepted {s t : State} {c : CycleIn} {r : List CycleIn} (hs : s.state = .hdr)
    (hen : c.busEn = false) (ht : step (s.fed (c :: r)) = .next t) (haccepted : t.state = .hdrDecoded) :
    t.irqStatus = s.irqStatus ||| 0x01 := by
  have haccessed : accessed s c r = sampled s r := if_neg (by rw [hen, Bool.false_and]; nofun)
  cases cycleResult_of_step_fed ht with
  | reset hr => exact nomatch haccepted
  | linkLost _ _ hu =>
    obtain ⟨_, _, _, _, _, _, _, rfl, -⟩ := hu
    exact nomatch haccepted
  | command _ hw => simp [writesCmd, hen] at hw
  | quiet _ hq => rcases hq with hq | hq <;> exact nomatch hs.symm.trans hq
  | scan _ hq => exact nomatch hs.symm.trans hq
  | reading _ hq => exact nomatch hs.symm.trans hq
  | writing _ hq => exact nomatch hs.symm.trans hq
  | hdr hc _ =>
    have hout := hdr_outcome s.hdrIdx c ((accessed_state s c r).trans hs)
    generalize timeOut .hdr s.hdrIdx c (takeOffered c (accessed s c r)) = v at hout haccepted ⊢
    rw [haccessed] at hout
    cases hout with
    | goesOn raw idx => exact nomatch hs.symm.trans haccepted
    | resync raw hcode => exact nomatch haccepted
    | overflow => exact nomatch haccepted
    | accepted raw hwf hfits =>
      have hset : (0 : BitVec 7) ||| IrqBit.hdr.mask = 0x01 := BitVec.zero_or
      exact (committedIrq_zero s.irqStatus (0 ||| IrqBit.hdr.mask)).trans (by rw [hset])

/-- Settles O43: the write clears before the cycle sets; IDLE sets nothing, an accepted header sets HDR. -/
theorem setWinsOverClear : Obligations.SetWinsOverClear := by
  unfold Obligations.SetWinsOverClear
  intro s c r v
  refine ⟨fun hr hen => step_clearIrq r v hr hen, fun hc hs => ?_, fun hc hs h5 hv htarget => ?_⟩ <;>
    obtain ⟨t0, hwithout, hwith⟩ := step_clearIrq (s := s) (c := { c with busEn := false }) r v (linked_iff.mp hc).2 rfl
  · have hidle := irqStatus_of_idle (s := { s with irqStatus := s.irqStatus &&& ~~~(v.setWidth 7) })
      (c := { c with busEn := false }) hc hs rfl hwithout
    exact ⟨_, hwith, hidle⟩
  · obtain ⟨t, ht, hstate⟩ := endsIn_hdr (s := { s with irqStatus := s.irqStatus &&& ~~~(v.setWidth 7) })
      (c := { c with busEn := false }) r hs hc
    rw [if_pos hv, if_pos h5, htarget, Host.Outcome.next.inj (ht.symm.trans hwithout)] at hstate
    have hset := irqStatus_of_accepted (s := { s with irqStatus := s.irqStatus &&& ~~~(v.setWidth 7) })
      (c := { c with busEn := false }) hs rfl hwithout hstate
    exact ⟨_, hwith, hstate, hset⟩

end Sys2Proof.Proofs

namespace Sys2Proof.Proofs

open Sys2Proof.Machine Sys2Proof.Laws

/-! ### PEND

Two states that differ in PEND alone take every phase alike, phase 3 but for PEND. -/

/-- The state s with p in PEND. -/
def withPend (p : Byte) (s : State) : State := { s with pend := p }

theorem withPend_eq_withAside (p : Byte) (s : State) : withPend p s = withAside { asideOf s with pend := p } s := rfl

theorem linkPhase_withPend (p : Byte) (s : State) : linkPhase (withPend p s) = withPend p (linkPhase s) := by
  simp only [linkPhase, apply_ite (withPend p)]
  rfl

theorem commit_encoderPhase_withPend (p : Byte) (s : State) :
    commit (encoderPhase (withPend p s)) = { commit (encoderPhase s) with pend := p } := by
  have hencoder : encoderPhase (withPend p s) = withPend p (encoderPhase s) := by
    simp only [encoderPhase, apply_ite (withPend p)]
    rfl
  rw [hencoder]
  rfl

/-- Of the four commands none reads PEND. -/
theorem commandWrite_withPend (p : Byte) (w : Word) (s : State) :
    commandWrite w (withPend p s) = mapNext (withPend p) (commandWrite w s) := by
  have hpoll : exec .poll (withPend p s) = mapNext (withPend p) (exec .poll s) := by
    simp only [exec, execPoll, apply_ite (mapNext _)]
    rfl
  have hread : exec .read (withPend p s) = mapNext (withPend p) (exec .read s) := by
    simp only [exec, execRead, apply_ite (mapNext _)]
    rfl
  have hwrite : exec .write (withPend p s) = mapNext (withPend p) (exec .write s) := by
    simp only [exec, execWrite, apply_ite (mapNext _)]
    rfl
  have hcancel : exec .cancel (withPend p s) = mapNext (withPend p) (exec .cancel s) := by
    simp only [exec, execCancel, apply_ite (mapNext _)]
    rfl
  simp only [commandWrite_eq, apply_ite (mapNext _), hpoll, hread, hwrite, hcancel]
  rfl

theorem dataWrite_withPend (p : Byte) (s0 : EngineState) (w32 : Bool) (a v : Word) (s : State) :
    dataWrite s0 w32 a v (withPend p s) = withPend p (dataWrite s0 w32 a v s) := by
  obtain ⟨hstatus, hpend, -⟩ := dataWrite_keeps s0 w32 a v s
  have haside := asideOf_dataWrite_congr s0 w32 a v (s := withPend p s) (t := s) (q := s.irqStatus) (p := p) rfl rfl
  rw [dataWrite_eq_withAside s0 w32 a v (withPend p s), haside, ← hstatus, dataWrite_eq_withAside s0 w32 a v s]
  rfl

theorem busPhase_withPend (p : Byte) (s0 : EngineState) (s : State) :
    busPhase s0 (withPend p s) = mapNext (withPend p) (busPhase s0 s) := by
  have hinp : (withPend p s).inp = s.inp := rfl
  simp only [busPhase, hinp, commandWrite_withPend, dataWrite_withPend, apply_ite (mapNext _)]
  rfl

/-- A READING phase that phases 1 and 2 leave in READING stands where it stood. -/
theorem midPixel_of_busPhase {s v : State} {c : CycleIn} {r : List CycleIn} (hs : s.state = .reading)
    (hv : busPhase s.state (linkPhase (withPorts c (outputs s c) (sampled s r))) =
      .next (withPorts c (outputs s c) v)) (hmid : MidPixel v) : MidPixel s := by
  obtain ⟨hread, hfmt, hodd⟩ := hmid
  cases hup : c.linkUp with
  | true =>
    have hbus := busPhase_reading (t := sampled s r) c (outputs s c) hs
    rw [linkPhase_up hup, hs, hbus] at hv
    have hkeeps : v.reqFmt = s.reqFmt ∧ v.xferCount = s.xferCount := by
      obtain ⟨-, hf, hcount, -⟩ := hostAccess_sampled_transfer .reading c s r
      have he := Host.Outcome.next.inj hv
      exact ⟨(congrArg State.reqFmt he).symm.trans hf, (congrArg State.xferCount he).symm.trans hcount⟩
    obtain ⟨hf, hcount⟩ := hkeeps
    exact ⟨hs, hf ▸ hfmt, hcount ▸ hodd⟩
  | false =>
    have hdown : (linkPhase (withPorts c (outputs s c) (sampled s r))).state = .idle := linkPhase_down_state hup
    rw [linkPhase_eq_linkStep] at hv hdown
    obtain ⟨w, hw, hidle⟩ := busPhase_down_state s.state hdown hup
    have he := Host.Outcome.next.inj (hw.symm.trans hv)
    exact nomatch hidle.symm.trans ((congrArg State.state he).trans hread)

/-- Settles O42: every phase takes the two states alike; amid a pixel alone the READING byte step reads PEND. -/
theorem pendMattersOnlyMidPixel : Obligations.PendMattersOnlyMidPixel := by
  unfold Obligations.PendMattersOnlyMidPixel
  intro s t p hno ht
  rw [← step_fed_currentInput s] at ht
  have hfed : step { s with pend := p } = step ((withPend p s).fed (currentInput s :: s.inputs.tail)) :=
    (step_fed_currentInput (withPend p s)).symm
  rw [hfed]
  generalize currentInput s = c at ht ⊢
  generalize s.inputs.tail = r at ht ⊢
  have hout : outputs (withPend p s) c = outputs s c := rfl
  by_cases hr : c.rst = true
  · refine ⟨t.pend, ?_⟩
    rw [step_of_rst (s := s.fed (c :: r)) hr] at ht
    rw [step_of_rst (s := (withPend p s).fed (c :: r)) hr, ← Host.Outcome.next.inj ht]
    rfl
  have hr : c.rst = false := Bool.eq_false_iff.mpr hr
  obtain ⟨u, hu⟩ := linkPhase_answers c (outputs s c) (sampled s r)
  obtain ⟨v, hv⟩ := busPhase_answers c (outputs s c) s.state u
  rw [← hu] at hv
  have hlink : linkPhase (withPorts c (outputs s c) (sampled (withPend p s) r)) =
      withPend p (linkPhase (withPorts c (outputs s c) (sampled s r))) :=
    linkPhase_withPend p (withPorts c (outputs s c) (sampled s r))
  have hv' : busPhase s.state (linkPhase (withPorts c (outputs s c) (sampled (withPend p s) r))) =
      .next (withPorts c (outputs s c) (withPend p v)) := by
    rw [hlink, busPhase_withPend, hv]
    rfl
  have hstep := step_of_busPhase hr hv
  have hstep' := step_of_busPhase (s := withPend p s) hr hv'
  obtain ⟨q, e, -⟩ := streamStep_passedBy s.hdrIdx c (o := outputs s c) (a := { asideOf v with pend := p })
    (s := v) outputs_tx_writing (fun _ => ⟨rfl, rfl, rfl, rfl⟩)
    (.inr fun ⟨hs, hmid⟩ => hno (midPixel_of_busPhase hs hv hmid))
  have hstream : streamStep s.state s.hdrIdx c (outputs s c) (withPend p v) =
      withPend q (streamStep s.state s.hdrIdx c (outputs s c) v) := by
    rw [withPend_eq_withAside, e, withPend_eq_withAside, asideOf_streamStep s.hdrIdx c v outputs_tx_writing]
  have hnext : step ((withPend p s).fed (c :: r)) =
      .next (commit (encoderPhase (withPend q (withPorts c (outputs s c)
        (streamStep s.state s.hdrIdx c (outputs s c) v))))) := by
    rw [hstep']
    exact congrArg (fun x => Host.Outcome.next (commit (encoderPhase (withPorts c (outputs s c) x)))) hstream
  refine ⟨q, ?_⟩
  rw [hnext, commit_encoderPhase_withPend, ← Host.Outcome.next.inj (hstep.symm.trans ht)]

end Sys2Proof.Proofs

namespace Sys2Proof.Proofs

open Sys2Proof.Machine Sys2Proof.Laws

/-! ### Window reads -/

/-- The bytes of an appended word. -/
theorem extract_of_bytes (b0 b1 b2 b3 : Byte) :
    (b3 ++ b2 ++ b1 ++ b0).extractLsb' 0 8 = b0 ∧ (b3 ++ b2 ++ b1 ++ b0).extractLsb' 8 8 = b1 ∧
      (b3 ++ b2 ++ b1 ++ b0).extractLsb' 16 8 = b2 ∧ (b3 ++ b2 ++ b1 ++ b0).extractLsb' 24 8 = b3 := by
  refine ⟨?_, ?_, ?_, ?_⟩ <;>
  · apply BitVec.eq_of_getLsbD_eq
    intro i hi
    simp only [BitVec.getLsbD_extractLsb', BitVec.getLsbD_append]
    grind

theorem windowRead_byte (s : State) (buf : BufId) (i : Nat) :
    windowRead s buf false i = (windowByte s buf i).setWidth 32 := rfl

theorem windowRead_word (s : State) (buf : BufId) {i : Nat} (h : i % 4 = 0) :
    windowRead s buf true i =
      windowByte s buf (i + 3) ++ windowByte s buf (i + 2) ++ windowByte s buf (i + 1) ++ windowByte s buf i := by
  rw [windowRead, if_pos rfl, if_pos h]

/-- Byte k of an aligned window read. -/
theorem windowRead_extract (s : State) (buf : BufId) {i k : Nat} (h : i % 4 = 0) (hk : k < 4) :
    (windowRead s buf true i).extractLsb' (8 * k) 8 = windowByte s buf (i + k) := by
  rw [windowRead_word s buf h]
  obtain ⟨h0, h1, h2, h3⟩ := extract_of_bytes (windowByte s buf i) (windowByte s buf (i + 1)) (windowByte s buf (i + 2))
    (windowByte s buf (i + 3))
  match k, hk with
  | 0, _ => exact h0
  | 1, _ => exact h1
  | 2, _ => exact h2
  | 3, _ => exact h3

/-- Settles O35: the address map, the memory under each window, and the packing byte by byte. -/
theorem windowReadPacksBytes : Obligations.WindowReadPacksBytes := by
  unfold Obligations.WindowReadPacksBytes
  refine ⟨fun s w32 a => ⟨fun hlow hhigh => busValue_dst (regionOf_dst hlow hhigh),
    fun hlow hhigh => busValue_src (regionOf_src hlow hhigh)⟩, fun s i b => ⟨fun h => ?dst, fun h => ?src⟩,
    fun s buf i => ⟨fun h => ?inside, fun h => ?past, fun hi k hk => ?packed, fun hi => ?misaligned⟩⟩
  case dst => rw [State.bufferByte, State.buffer, h, Option.getD_some]
  case src => rw [State.bufferByte, State.buffer, h, Option.getD_some]
  case inside => rw [windowRead_byte, windowByte, if_pos h]
  case past =>
    rw [windowRead_byte, windowByte, if_neg (Nat.not_lt.mpr h)]
    rfl
  case packed => rw [windowRead_extract s buf hi hk, windowRead_byte]
  case misaligned => rw [windowRead, if_pos rfl, if_neg hi]

/-! ### The CSRs -/

/-- A field above the low w bits. -/
theorem extract_above {n w start len : Nat} {x : BitVec n} {y : BitVec w} {z : BitVec len} (h : w ≤ start)
    (hz : x.extractLsb' (start - w) len = z) : (x ++ y).extractLsb' start len = z :=
  (BitVec.extractLsb'_append_eq_of_le h).trans hz

/-- The field in the low w bits. -/
theorem extract_low {n w : Nat} {x : BitVec n} {y : BitVec w} : (x ++ y).extractLsb' 0 w = y :=
  BitVec.extractLsb'_append_eq_right

section
variable (s : State)

theorem csrValue_status : csrValue s 0x04 =
    0#22 ++ BitVec.ofBool (irqLine s) ++ BitVec.ofNat 3 s.hdrIdx.val ++ BitVec.ofBool s.seenM0 ++ BitVec.ofBool s.linkQ
      ++ BitVec.ofBool s.reqValid ++ s.state.code := rfl

theorem status_bits :
    (csrValue s 0x04).getLsbD 3 = s.reqValid ∧ (csrValue s 0x04).getLsbD 4 = s.linkQ ∧
      (csrValue s 0x04).getLsbD 5 = s.seenM0 ∧ (csrValue s 0x04).getLsbD 9 = irqLine s := by
  simp only [csrValue_status, BitVec.getLsbD_append]
  simp

theorem status_hdrIdx : ((csrValue s 0x04).extractLsb' 6 3).toNat = s.hdrIdx.val := by
  have hfield : (csrValue s 0x04).extractLsb' 6 3 = BitVec.ofNat 3 s.hdrIdx.val :=
    extract_above (by decide) (extract_above (by decide) (extract_above (by decide) (extract_above (by decide)
      extract_low)))
  rw [hfield, BitVec.toNat_ofNat]
  omega

theorem status_reserved : (csrValue s 0x04).extractLsb' 10 22 = 0 :=
  extract_above (by decide) (extract_above (by decide) (extract_above (by decide) (extract_above (by decide)
    (extract_above (by decide) (extract_above (by decide) BitVec.extractLsb'_eq_self)))))

theorem requestMode_fields :
    (csrValue s 0x08).extractLsb' 0 2 = s.reqDir ∧ (csrValue s 0x08).extractLsb' 2 6 = 0 ∧
      (csrValue s 0x08).extractLsb' 8 2 = s.reqFmt ∧ (csrValue s 0x08).extractLsb' 10 22 = 0 :=
  ⟨extract_low, extract_above (by decide) extract_low, extract_above (by decide) (extract_above (by decide) extract_low),
    extract_above (by decide) (extract_above (by decide) (extract_above (by decide) BitVec.extractLsb'_eq_self))⟩

theorem errCode_fields :
    (csrValue s 0x18).extractLsb' 0 4 = s.errCode.code ∧
      (csrValue s 0x18).extractLsb' 4 3 = errClass s.errCode.code ∧ (csrValue s 0x18).extractLsb' 7 25 = 0 :=
  ⟨extract_low, extract_above (by decide) extract_low,
    extract_above (by decide) (extract_above (by decide) BitVec.extractLsb'_eq_self)⟩

theorem hdrRaw_tail_fields :
    (csrValue s 0x20).extractLsb' 0 8 = s.hdrRaw.b4 ∧ (csrValue s 0x20).extractLsb' 8 8 = s.hdrRaw.b5 ∧
      (csrValue s 0x20).extractLsb' 16 16 = 0 :=
  ⟨extract_low, extract_above (by decide) extract_low,
    extract_above (by decide) (extract_above (by decide) BitVec.extractLsb'_eq_self)⟩

end

/-- Zeros above a register are its zero extension. -/
theorem zero_append_eq_setWidth {n w : Nat} (x : BitVec w) : (0#n ++ x : BitVec (n + w)) = x.setWidth (n + w) := by
  apply BitVec.eq_of_getLsbD_eq
  intro i hi
  simp only [BitVec.getLsbD_append, BitVec.getLsbD_setWidth]
  grind

theorem csrValue_of_unlisted (s : State) {n : Nat} (h : n % 4 ≠ 0 ∨ 0x44 < n) : csrValue s n = 0 := by
  unfold csrValue
  split
  any_goals omega
  rfl

theorem busValue_csr {s : State} {w32 : Bool} {a : Word} (h : a.toNat < 0x01000000) :
    busValue s w32 a = if w32 then csrValue s a.toNat else 0 := by
  rw [busValue, regionOf, if_pos h]

theorem busValue_reserved (s : State) (w32 : Bool) {a : Word} (h : 0x03000000 ≤ a.toNat) : busValue s w32 a = 0 := by
  rw [busValue, regionOf, if_neg (by omega), if_neg (by omega), if_neg (by omega)]

/-- Settles O36: the fields of each CSR, then which reads reach one. -/
theorem csrFieldLayout : Obligations.CsrFieldLayout := by
  unfold Obligations.CsrFieldLayout
  intro s
  obtain ⟨hvalid, hlink, hseen, hirq⟩ := status_bits s
  refine ⟨⟨extract_low, hvalid, hlink, hseen, status_hdrIdx s, hirq, status_reserved s⟩, requestMode_fields s,
    ⟨BitVec.extractLsb'_append_eq_left, extract_low⟩, ⟨rfl, rfl⟩, errCode_fields s, extract_of_bytes _ _ _ _,
    hdrRaw_tail_fields s, ⟨rfl, rfl⟩, ⟨zero_append_eq_setWidth _, zero_append_eq_setWidth _⟩,
    ⟨BitVec.extractLsb'_append_eq_left, extract_low⟩, zero_append_eq_setWidth _,
    ⟨BitVec.extractLsb'_append_eq_left, extract_low⟩, zero_append_eq_setWidth _, fun hn => ?_, rfl,
    ⟨rfl, rfl, rfl, rfl, rfl, rfl⟩, ⟨rfl, rfl, rfl, rfl, rfl, rfl, rfl, rfl, rfl, rfl, rfl⟩, fun a _ ha => ?_,
    fun a ha => ?_, fun a ha hno => ?_, fun w32 a ha => busValue_reserved s w32 ha⟩
  · exact (BitVec.toNat_ofNat _ _).trans (Nat.mod_eq_of_lt hn)
  · rw [busValue_csr (by omega), if_pos rfl]
  · rw [busValue_csr ha]
    rfl
  · rw [busValue_csr ha, if_pos rfl, csrValue_of_unlisted s hno]

end Sys2Proof.Proofs

namespace Sys2Proof.Proofs

open Sys2Proof.Machine Sys2Proof.Laws

/-! ### Scanner and header codes -/

/-- Settles O11: SYNC is the SCAN byte step of the marker's last byte. -/
theorem syncResult : Obligations.SyncResult := by
  unfold Obligations.SyncResult
  intro s
  refine ⟨fun hs hm => ?_, fun hs hm => ?_, fun hs => if_neg hs⟩
  · exact (if_pos hs).trans (congrArg Host.Outcome.next (if_pos ⟨hm, rfl⟩))
  · have hnoise : scanByte 0x54 s = { s with scanCount := s.scanCount + 1 } :=
      (if_neg fun h => Bool.false_ne_true (hm.symm.trans h.1)).trans
        (congrArg (fun seen => { s with scanCount := s.scanCount + 1, seenM0 := seen }) hm.symm)
    exact (if_pos hs).trans (congrArg Host.Outcome.next hnoise)

theorem directionByte_first {s : State} (b : Byte) (hs : s.state = .hdr) (h0 : s.hdrIdx = 0) :
    directionByte b s = { s with hdrRaw := { s.hdrRaw with b0 := b }, hdrIdx := 1 } := by
  rw [directionByte, if_pos ⟨hs, h0⟩, hdrByte_field b s (by rw [h0]; decide), h0]
  rfl

/-- Settles O15: a direction code is the HDR byte step at the first field byte. -/
theorem directionCodeResult : Obligations.DirectionCodeResult := by
  unfold Obligations.DirectionCodeResult
  intro s
  exact ⟨fun hs h0 => ⟨congrArg Host.Outcome.next (directionByte_first 0x01 hs h0),
    congrArg Host.Outcome.next (directionByte_first 0x02 hs h0)⟩,
    fun h => ⟨congrArg Host.Outcome.next (if_neg h), congrArg Host.Outcome.next (if_neg h)⟩⟩

/-- Settles O16: the byte step of HDR, on what the host access makes of the state. -/
theorem fieldBytesStoredUnchecked : Obligations.FieldBytesStoredUnchecked := by
  unfold Obligations.FieldBytesStoredUnchecked
  intro s c r b hs h5 hc hto hv
  obtain ⟨hstate, -, -, hidx, hraw⟩ := hostAccess_sampled s.state c s r
  have herr : (hostAccess s.state c (sampled s r)).errCode = s.errCode := by
    obtain ⟨_, _, _, _, _, _, _, e⟩ := hostAccess_hostWrote s.state c (sampled s r)
    rw [e]
    rfl
  have hready : ∀ d : CycleIn, linked d = true → rxReady s d = true := fun d hd => rxReady_of_linked hs hd
  have hwithout := step_taking r (.inr hs) (hready c hc)
  have hwith := step_taking (c := { c with rxValid := true, rxData := b }) r (.inr hs) (hready _ hc)
  rw [timeOut_of_none hto, taken, takeOffered_of_idle hv] at hwithout
  have hbyte : plainByte b (hostAccess s.state c (sampled s r)) =
      { hostAccess s.state c (sampled s r) with hdrRaw := s.hdrRaw.set s.hdrIdx b, hdrIdx := s.hdrIdx + 1 } := by
    rw [plainByte_hdr _ (hstate.trans hs), hdrByte_field _ _ (by rwa [hidx]), hraw, hidx]
  rw [timeOut_of_none (c := { c with rxValid := true, rxData := b }) hto, taken, takeOffered_of_valid rfl] at hwith
  exact ⟨_, hwithout, hstate.trans hs, herr, hwith.trans (congrArg (fun u => Host.Outcome.next
    (commit (withPorts { c with rxValid := true, rxData := b } (outputs s c) u))) hbyte)⟩

/-! ### The payload size -/

/-- An image has at most 65535 * 65535 pixels. -/
theorem pixels_le (h w : Half) : h.toNat * w.toNat ≤ 4294836225 := by
  have hh : h.toNat ≤ 65535 := by bv_omega
  have hw : w.toNat ≤ 65535 := by bv_omega
  exact Nat.mul_le_mul hh hw

theorem bpp_le (f : BitVec 2) : bpp f ≤ 3 := by
  revert f
  decide

theorem payloadBytes_lt (h w : Half) (f : BitVec 2) : payloadBytes h w f < 2 ^ 34 := by
  have hle : payloadBytes h w f ≤ 4294836225 * 3 := Nat.mul_le_mul (pixels_le h w) (bpp_le f)
  omega

theorem payloadBytes_grayscale (h w : Half) : payloadBytes h w 1 = h.toNat * w.toNat := Nat.mul_one _
theorem payloadBytes_rgb565 (h w : Half) : payloadBytes h w 2 = 2 * (h.toNat * w.toNat) := Nat.mul_comm _ _
theorem payloadBytes_rgb888 (h w : Half) : payloadBytes h w 3 = 3 * (h.toNat * w.toNat) := Nat.mul_comm _ _

/-- 46340 is the largest RGB565 square. -/
theorem payloadBytes_square (n : Half) : 4294967295 < payloadBytes n n 2 ↔ 46340 < n.toNat := by
  rw [payloadBytes_rgb565]
  constructor
  · intro hbig
    by_contra hn
    have hle : n.toNat * n.toNat ≤ 46340 * 46340 := Nat.mul_le_mul (by omega) (by omega)
    omega
  · intro hn
    have hle : 46341 * 46341 ≤ n.toNat * n.toNat := Nat.mul_le_mul hn hn
    omega

/-- Settles O18: the size of each format, bounded by the largest image, and its guard as an inequality of pixels. -/
theorem sizeGuardBoundaries : Obligations.SizeGuardBoundaries := by
  unfold Obligations.SizeGuardBoundaries
  refine ⟨fun h w => ⟨payloadBytes_grayscale h w, payloadBytes_rgb565 h w, payloadBytes_rgb888 h w, payloadBytes_lt h w,
    ?_, ?_, ?_⟩, payloadBytes_square, by decide, by decide, by decide, by decide⟩
  · rw [payloadBytes_grayscale]
    exact pixels_le h w
  · rw [payloadBytes_rgb565]
    omega
  · rw [payloadBytes_rgb888]
    omega

/-! ### The format codes -/

/-- The format code i stands for the format f. -/
def IsFormatCode (i : Instr) (f : BitVec 2) : Prop :=
  (i = .fmtGrayscale ∧ f = 1) ∨ (i = .fmtRGB565 ∧ f = 2) ∨ (i = .fmtRGB888 ∧ f = 3)

/-- The READING byte step of a format. -/
def readStep (f : BitVec 2) : Byte → State → State := if f = 2 then readPackedByte else readPlainByte

theorem exec_formatCode {i : Instr} {f : BitVec 2} (h : IsFormatCode i f) (s : State) :
    exec i s = .next (formatCode f (readStep f) s) := by
  rcases h with ⟨rfl, rfl⟩ | ⟨rfl, rfl⟩ | ⟨rfl, rfl⟩ <;> rfl

section
variable {f : BitVec 2} {read : Byte → State → State} {s : State}

theorem formatCode_reading (hs : s.state = .reading) (hf : s.reqFmt = f) :
    formatCode f read s = read s.inp.rxData s := by
  simp only [formatCode, hs, if_pos hf]

theorem formatCode_writing (hs : s.state = .writing) (hf : s.reqFmt = f) : formatCode f read s = transmitByte s := by
  simp only [formatCode, hs, if_pos hf]

theorem formatCode_lastField (hs : s.state = .hdr) (h5 : s.hdrIdx = 5) :
    formatCode f read s = hdrByte (f.setWidth 8) s := by
  simp only [formatCode, hs, if_pos h5]

theorem formatCode_elsewhere
    (h : s.state = .idle ∨ s.state = .scan ∨ s.state = .hdrDecoded ∨ (s.state = .hdr ∧ s.hdrIdx ≠ 5) ∨
      ((s.state = .reading ∨ s.state = .writing) ∧ s.reqFmt ≠ f)) : formatCode f read s = s := by
  rcases h with hs | hs | hs | ⟨hs, h5⟩ | ⟨hs | hs, hf⟩ <;> simp only [formatCode, hs]
  · exact if_neg h5
  · exact if_neg hf
  · exact if_neg hf

end

/-- The field bytes of the header that the bytes held and the last one make. -/
theorem headerBytes_held (raw : HdrRaw) (b : Byte) :
    headerBytes raw.b0 (halfOf raw.b1 raw.b2) (halfOf raw.b3 raw.b4) b = { raw with b5 := b } := by
  simp only [headerBytes, highByte_halfOf, lowByte_halfOf]

/-- Settles O21: the code's byte completes the header; where no byte is due it is not looked at. -/
theorem formatCodeElsewhere : Obligations.FormatCodeElsewhere := by
  unfold Obligations.FormatCodeElsewhere
  intro s i f hi
  refine ⟨fun hs h5 => ?_, fun h => ?_⟩
  · rw [exec_formatCode hi, formatCode_lastField hs h5, hdrByte_last _ _ h5, exec_hdr_last hs h5, headerBytes_held]
  · rw [exec_formatCode hi, formatCode_elsewhere h]

/-- Settles O25: the transmit step, by whether the byte is the last. -/
theorem transmitResult : Obligations.TransmitResult := by
  unfold Obligations.TransmitResult
  intro s i f hi hs hf
  rw [exec_formatCode hi, formatCode_writing hs hf]
  exact ⟨fun hmore => congrArg Host.Outcome.next (if_neg hmore), fun hlast => congrArg Host.Outcome.next (if_pos hlast)⟩

/-! ### The READING byte steps -/

/-- Completing a decode, or going on with it. -/
theorem decodeAdvance_eq {s : State} {ch : BitVec 2} (hch : BitVec.ofNat 2 (nch s.reqFmt) = ch) :
    (s.xferCount + 1 ≠ s.payloadSize → decodeAdvance s = { s with xferCount := s.xferCount + 1 }) ∧
    (s.xferCount + 1 = s.payloadSize → decodeAdvance s = { s with
      xferCount := s.xferCount + 1, dstH := s.reqH, dstW := s.reqW, dstC := ch, reqValid := false,
      irqSet := s.irqSet ||| 0x02, state := .idle }) := by
  refine ⟨fun hmore => if_neg hmore, fun hlast => ?_⟩
  rw [decodeAdvance, if_pos hlast, ← hch]
  rfl

/-- Within the bounds every byte of a format without expansion has its place in DST_BUF. -/
theorem plain_inside {s : State} (hb : ReadingBounds s) (hf : bpp s.reqFmt ≤ nch s.reqFmt) :
    s.xferCount.toNat < s.bufBytes := by
  obtain ⟨hcount, hsize, hfits⟩ := hb
  have hle : payloadBytes s.reqH s.reqW s.reqFmt ≤ decodedBytes s.reqH s.reqW s.reqFmt := Nat.mul_le_mul_left _ hf
  omega

theorem read_storeBytes_single (n : Nat) (m : Memory) (i k : Nat) (b : Byte) (hi : i < n) :
    Memory.read (storeBytes n m i [b]) k = if k = i then some b else Memory.read m k := by
  rw [storeBytes, storeBytes, read_storeByte]
  simp only [hi, and_true]

/-- Settles O19: the byte step stores the byte inside the buffer and advances. -/
theorem plainReadResult : Obligations.PlainReadResult := by
  unfold Obligations.PlainReadResult
  intro s i f ch hi hs hf hb
  have hcode : IsFormatCode i f ∧ readStep f = readPlainByte ∧ BitVec.ofNat 2 (nch f) = ch ∧ bpp f ≤ nch f := by
    rcases hi with ⟨rfl, rfl, rfl⟩ | ⟨rfl, rfl, rfl⟩
    · exact ⟨.inl ⟨rfl, rfl⟩, rfl, rfl, by decide⟩
    · exact ⟨.inr (.inr ⟨rfl, rfl⟩), rfl, rfl, by decide⟩
  obtain ⟨hcode, hstep, hch, hbpp⟩ := hcode
  have hinside := plain_inside hb (by rw [hf]; exact hbpp)
  obtain ⟨hmore, hlast⟩ := decodeAdvance_eq (ch := ch)
    (s := { s with dstBuf := storeBytes s.bufBytes s.dstBuf s.xferCount.toNat [s.inp.rxData] }) (by rw [← hch, ← hf])
  rw [exec_formatCode hcode, formatCode_reading hs hf, hstep]
  exact ⟨storeBytes s.bufBytes s.dstBuf s.xferCount.toNat [s.inp.rxData],
    fun a => read_storeBytes_single _ _ _ _ _ hinside, fun h => congrArg Host.Outcome.next (hmore h),
    fun h => congrArg Host.Outcome.next (hlast h)⟩

/-- Within the bounds the three channels of an RGB565 pixel have their place in DST_BUF. -/
theorem packed_inside {s : State} (hb : ReadingBounds s) (hf : s.reqFmt = 2) :
    3 * (s.xferCount.toNat / 2) + 3 ≤ s.bufBytes := by
  obtain ⟨hcount, hsize, hfits⟩ := hb
  rw [hf, payloadBytes_rgb565] at hsize
  have hdecoded : decodedBytes s.reqH s.reqW s.reqFmt = s.reqH.toNat * s.reqW.toNat * 3 := by
    rw [hf]
    rfl
  omega

/-- Settles O20: an even byte waits, an odd one stores its pixel inside the buffer; then the step advances. -/
theorem packedReadResult : Obligations.PackedReadResult := by
  unfold Obligations.PackedReadResult
  intro s hs hf hb
  have hinside := packed_inside hb hf
  have hexec : exec .fmtRGB565 s = .next (readPackedByte s.inp.rxData s) := by
    rw [exec_formatCode (.inr (.inl ⟨rfl, rfl⟩)), formatCode_reading hs hf]
    rfl
  rw [hexec]
  rcases readPackedByte_cases s.inp.rxData s with ⟨heven, e⟩ | ⟨hodd, e⟩ <;> rw [e]
  · obtain ⟨hmore, hlast⟩ := decodeAdvance_eq (ch := 3) (s := { s with pend := s.inp.rxData }) (by rw [hf]; rfl)
    exact ⟨s.dstBuf, s.inp.rxData, fun _ => ⟨rfl, fun _ => rfl⟩, fun hodd => by omega,
      fun h => congrArg Host.Outcome.next (hmore h), fun h => congrArg Host.Outcome.next (hlast h)⟩
  · have hplace : (s.xferCount.toNat - 1) / 2 = s.xferCount.toNat / 2 := by omega
    rw [hplace]
    obtain ⟨hmore, hlast⟩ := decodeAdvance_eq (ch := 3) (s := { s with
      dstBuf := storeBytes s.bufBytes s.dstBuf (3 * (s.xferCount.toNat / 2)) (unpack565 (s.pend ++ s.inp.rxData)) })
      (by rw [hf]; rfl)
    refine ⟨storeBytes s.bufBytes s.dstBuf (3 * (s.xferCount.toNat / 2)) (unpack565 (s.pend ++ s.inp.rxData)), s.pend,
      fun heven => by omega, fun _ => ⟨rfl, fun a => ?_⟩, fun h => congrArg Host.Outcome.next (hmore h),
      fun h => congrArg Host.Outcome.next (hlast h)⟩
    rw [read_storeBytes]
    have hlength : (unpack565 (s.pend ++ s.inp.rxData)).length = 3 := rfl
    rw [hlength]
    by_cases hin : 3 * (s.xferCount.toNat / 2) ≤ a ∧ a < 3 * (s.xferCount.toNat / 2) + 3
    · obtain ⟨hlow, hhigh⟩ := hin
      rw [if_pos ⟨hlow, hhigh, by omega⟩, if_pos ⟨hlow, hhigh⟩]
      rfl
    · rw [if_neg fun ⟨hlow, hhigh, _⟩ => hin ⟨hlow, hhigh⟩, if_neg hin]

end Sys2Proof.Proofs

namespace Sys2Proof.Proofs

open Sys2Proof.Machine Sys2Proof.Laws

/-! ### The overlap weights (42_codec_encode.md R128) -/

/-- The first k source units cover of the output interval i what lies below k * m. -/
theorem sumTo_overlap (n m i k : Nat) : sumTo k (fun y => overlap n m i y) = min n (k * m - i * n) := by
  induction k with
  | zero => rw [sumTo, Nat.zero_mul, Nat.zero_sub, Nat.min_zero]
  | succ k ih =>
    have hstep : overlap n m i k = min n ((k + 1) * m - i * n) - min n (k * m - i * n) := by
      simp only [overlap, Nat.add_mul, Nat.one_mul]
      omega
    have hmono : min n (k * m - i * n) ≤ min n ((k + 1) * m - i * n) := by
      rw [Nat.add_mul]
      omega
    rw [sumTo, ih, hstep]
    omega

/-- Settles O28: the source units together cover the whole output interval. -/
theorem overlapWeightsSum : Obligations.OverlapWeightsSum := by
  unfold Obligations.OverlapWeightsSum
  intro n m i hi
  have hcovered : (i + 1) * n ≤ n * m := Nat.mul_comm n m ▸ Nat.mul_le_mul_right n hi
  rw [Nat.add_mul, Nat.one_mul] at hcovered
  rw [sumTo_overlap]
  omega

theorem overlap_scale (a b k i y : Nat) : overlap (a * k) (b * k) i y = overlap a b i y * k := by
  simp only [overlap, ← Nat.mul_assoc, Nat.mul_min_mul_right, Nat.mul_max_mul_right, Nat.sub_mul]

/-- Of a source unit replicated a times, each output unit lies in one. -/
theorem overlap_up {a i y : Nat} (ha : 0 < a) : overlap 1 a i y = if y = i / a then 1 else 0 := by
  have hplace : i / a = y ↔ y * a ≤ i ∧ i < y * a + a := by
    rw [Nat.div_eq_iff ha]
    omega
  rw [overlap, Nat.mul_one, Nat.mul_one, Nat.add_mul y, Nat.one_mul]
  split <;> omega

/-- Of a blocks of source units, each output unit covers one. -/
theorem overlap_down {a i y : Nat} : overlap a 1 i y = if i * a ≤ y ∧ y < i * a + a then 1 else 0 := by
  rw [overlap, Nat.add_mul, Nat.mul_one, Nat.mul_one, Nat.one_mul]
  split <;> omega

/-! ### The resized sample (42_codec_encode.md R129) -/

/-- The weighted sum that `resized` rounds. -/
theorem resized_eq_rhu (s : State) (i j c : Nat) :
    resized s i j c =
      rhu (∑ y ∈ Finset.range s.srcH.toNat, ∑ x ∈ Finset.range s.srcW.toNat,
          overlap s.srcH.toNat s.reqH.toNat i y * overlap s.srcW.toNat s.reqW.toNat j x * sample s y x c)
        (s.srcH.toNat * s.srcW.toNat) := by
  simp only [resized, sumTo_eq_sum]

theorem rhu_mul_left {k : Nat} (hk : 0 < k) (S T : Nat) : rhu (k * S) (k * T) = rhu S T := by
  have hdistrib : 2 * (k * S) + k * T = k * (2 * S + T) := by ring
  rw [rhu, rhu, hdistrib, Nat.mul_left_comm, Nat.mul_div_mul_left _ _ hk]

theorem rhu_mul_self {T : Nat} (hT : 0 < T) (v : Nat) : rhu (T * v) T = v := by
  have hscale := rhu_mul_left hT v 1
  rw [Nat.mul_one] at hscale
  rw [hscale, rhu]
  omega

theorem rhu_le_of_le {S T b : Nat} (hT : 0 < T) (h : S ≤ b * T) : rhu S T ≤ b := by
  rw [rhu, ← Nat.lt_succ_iff, Nat.div_lt_iff_lt_mul (by omega)]
  nlinarith

theorem sample_le (s : State) (y x c : Nat) : sample s y x c ≤ 255 := by
  have hlt := (s.bufferByte .src ((y * s.srcW.toNat + x) * s.srcC.toNat + c)).isLt
  rw [sample]
  omega

/-- A weighted sum over pixels, the weights a product. -/
theorem sum_weighted (n m : Nat) (u v : Nat → Nat) (f : Nat → Nat → Nat) :
    ∑ y ∈ Finset.range n, ∑ x ∈ Finset.range m, u y * v x * f y x =
      ∑ y ∈ Finset.range n, u y * ∑ x ∈ Finset.range m, v x * f y x := by
  simp only [Finset.mul_sum, Nat.mul_assoc]

/-- No resized sample exceeds the samples. -/
theorem resized_le (s : State) {i j : Nat} (c : Nat) (hh : 0 < s.srcH.toNat) (hw : 0 < s.srcW.toNat)
    (hi : i < s.reqH.toNat) (hj : j < s.reqW.toNat) : resized s i j c ≤ 255 := by
  rw [resized_eq_rhu]
  refine rhu_le_of_le (Nat.mul_pos hh hw) ?_
  have hrows := overlapWeightsSum s.srcH.toNat s.reqH.toNat i hi
  have hcols := overlapWeightsSum s.srcW.toNat s.reqW.toNat j hj
  rw [sumTo_eq_sum] at hrows hcols
  calc _ ≤ ∑ y ∈ Finset.range s.srcH.toNat, ∑ x ∈ Finset.range s.srcW.toNat,
          overlap s.srcH.toNat s.reqH.toNat i y * overlap s.srcW.toNat s.reqW.toNat j x * 255 :=
        Finset.sum_le_sum fun y _ => Finset.sum_le_sum fun x _ => Nat.mul_le_mul_left _ (sample_le s y x c)
    _ = 255 * (s.srcH.toNat * s.srcW.toNat) := by
        rw [sum_weighted, ← Finset.sum_mul, ← Finset.sum_mul, hrows, hcols]
        ring

/-- A sum weighted by one unit. -/
theorem sum_overlap_up {n a i : Nat} (ha : 0 < a) (hi : i < a * n) (f : Nat → Nat) :
    ∑ y ∈ Finset.range n, overlap n (a * n) i y * f y = n * f (i / a) := by
  have hweight : ∀ y, overlap n (a * n) i y * f y = if y = i / a then n * f y else 0 := fun y => by
    have hscale := overlap_scale 1 a n i y
    rw [Nat.one_mul] at hscale
    rw [hscale, overlap_up ha, ite_mul, ite_mul, Nat.one_mul, Nat.zero_mul, Nat.zero_mul]
  have hinside : i / a < n := (Nat.div_lt_iff_lt_mul ha).mpr (Nat.mul_comm a n ▸ hi)
  simp only [hweight, Finset.sum_ite_eq', Finset.mem_range, hinside, if_true]

/-- A sum weighted by one block. -/
theorem sum_overlap_down {m a i : Nat} (hi : i < m) (f : Nat → Nat) :
    ∑ y ∈ Finset.range (a * m), overlap (a * m) m i y * f y = m * ∑ y ∈ Finset.range a, f (i * a + y) := by
  have hweight : ∀ y, overlap (a * m) m i y * f y = if i * a ≤ y ∧ y < i * a + a then m * f y else 0 := fun y => by
    have hscale := overlap_scale a 1 m i y
    rw [Nat.one_mul] at hscale
    rw [hscale, overlap_down, ite_mul, ite_mul, Nat.one_mul, Nat.zero_mul, Nat.zero_mul]
  have hinside : i * a + a ≤ a * m := by
    have hle := Nat.mul_le_mul_left a hi
    rw [Nat.mul_succ] at hle
    rwa [Nat.mul_comm i a]
  have hblock : (Finset.range (a * m)).filter (fun y => i * a ≤ y ∧ y < i * a + a) = Finset.Ico (i * a) (i * a + a) := by
    ext y
    simp only [Finset.mem_filter, Finset.mem_range, Finset.mem_Ico]
    omega
  simp only [hweight, ← Finset.sum_filter, hblock, Finset.sum_Ico_eq_sum_range, Nat.add_sub_cancel_left, Finset.mul_sum]

/-- Replication (42_codec_encode.md R130 (c)). -/
theorem resized_up (s : State) {a b i j : Nat} (c : Nat) (ha : 0 < a) (hb : 0 < b) (hh : 0 < s.srcH.toNat)
    (hw : 0 < s.srcW.toNat) (hi : i < s.reqH.toNat) (hj : j < s.reqW.toNat) (hH : s.reqH.toNat = a * s.srcH.toNat)
    (hW : s.reqW.toNat = b * s.srcW.toNat) : resized s i j c = sample s (i / a) (j / b) c := by
  rw [hH] at hi
  rw [hW] at hj
  rw [resized_eq_rhu, sum_weighted, hH, hW, sum_overlap_up ha hi, sum_overlap_up hb hj, ← Nat.mul_assoc,
    rhu_mul_self (Nat.mul_pos hh hw)]

/-- Rounded block means (42_codec_encode.md R130 (b)). -/
theorem resized_down (s : State) {a b i j : Nat} (c : Nat) (hi : i < s.reqH.toNat) (hj : j < s.reqW.toNat)
    (hH : s.srcH.toNat = a * s.reqH.toNat) (hW : s.srcW.toNat = b * s.reqW.toNat) :
    resized s i j c = rhu (sumTo a fun y => sumTo b fun x => sample s (i * a + y) (j * b + x) c) (a * b) := by
  have hsize : a * s.reqH.toNat * (b * s.reqW.toNat) = s.reqH.toNat * s.reqW.toNat * (a * b) := by ring
  rw [resized_eq_rhu, sum_weighted, hH, hW, sum_overlap_down hi]
  simp only [sum_overlap_down hj, ← Finset.mul_sum]
  rw [← Nat.mul_assoc, hsize, rhu_mul_left (Nat.mul_pos (by omega) (by omega))]
  simp only [sumTo_eq_sum]

/-- Settles O29: the sum as the definition writes it; equal sizes are replication by 1; the weights sum to the divisor. -/
theorem resizeIdentityAndBound : Obligations.ResizeIdentityAndBound := by
  unfold Obligations.ResizeIdentityAndBound
  refine ⟨fun s i j c => resized_eq_rhu s i j c, fun _ _ _ _ => rfl, fun s i j c hh hw hi hj => ?_⟩
  have hh : 0 < s.srcH.toNat := by bv_omega
  have hw : 0 < s.srcW.toNat := by bv_omega
  refine ⟨fun hH hW => ?_, resized_le s c hh hw hi hj⟩
  have hup := resized_up s (a := 1) (b := 1) c one_pos one_pos hh hw hi hj (by rw [hH, Nat.one_mul])
    (by rw [hW, Nat.one_mul])
  rwa [Nat.div_one, Nat.div_one] at hup

/-- Settles O30: the weights of a whole-factor resize are 0 but for one block, or one unit. -/
theorem resizeByWholeFactors : Obligations.ResizeByWholeFactors := by
  unfold Obligations.ResizeByWholeFactors
  intro s a b i j c ha hb hh hw hi hj
  have hh : 0 < s.srcH.toNat := by bv_omega
  have hw : 0 < s.srcW.toNat := by bv_omega
  exact ⟨resized_down s c hi hj, resized_up s c ha hb hh hw hi hj⟩

/-! ### The encoded sequence (42_codec_encode.md R131, R136, R137) -/

theorem convertPixel_length {fmt : BitVec 2} (srcC : BitVec 2) (q : Nat → Nat) (hf : fmt = 1 ∨ fmt = 2 ∨ fmt = 3) :
    (convertPixel srcC fmt q).length = bpp fmt := by
  unfold convertPixel
  rcases hf with rfl | rfl | rfl <;> split <;> rfl

section
variable {α : Type} {f : Nat → List α} {n : Nat} (hf : ∀ i, (f i).length = n)
include hf

theorem length_flatMap_range (m : Nat) : ((List.range m).flatMap f).length = m * n := by
  simp only [List.length_flatMap, hf, List.map_const', List.length_range, List.sum_replicate, smul_eq_mul]

/-- Chunks of one length, end to end: chunk i takes the places from i * n. -/
theorem getElem?_flatMap_range {m i k : Nat} (hi : i < m) (hk : k < n) :
    ((List.range m).flatMap f)[i * n + k]? = (f i)[k]? := by
  induction m with
  | zero => exact absurd hi (Nat.not_lt_zero i)
  | succ m ih =>
    rw [List.range_succ, List.flatMap_append, List.flatMap_singleton]
    by_cases hlast : i < m
    · have hinside : i * n + k < m * n := by
        have hle := Nat.mul_le_mul_right n hlast
        rw [Nat.succ_mul] at hle
        omega
      rw [List.getElem?_append_left (by rwa [length_flatMap_range hf]), ih hlast]
    · obtain rfl : i = m := by omega
      rw [List.getElem?_append_right (by rw [length_flatMap_range hf]; omega), length_flatMap_range hf,
        Nat.add_sub_cancel_left]

end

section
variable {s : State} (hf : s.reqFmt = 1 ∨ s.reqFmt = 2 ∨ s.reqFmt = 3)
include hf

theorem pixelBytes_length (i j : Nat) : (pixelBytes s i j).length = bpp s.reqFmt := convertPixel_length _ _ hf

/-- A row of E. -/
theorem row_length (i : Nat) :
    ((List.range s.reqW.toNat).flatMap fun j => pixelBytes s i j).length = s.reqW.toNat * bpp s.reqFmt :=
  length_flatMap_range (pixelBytes_length hf i) _

theorem encodedSequence_length : (encodedSequence s).length = payloadBytes s.reqH s.reqW s.reqFmt := by
  rw [encodedSequence, length_flatMap_range (row_length hf), payloadBytes, Nat.mul_assoc]

/-- Pixel i * W + j takes bpp bytes of E. -/
theorem encodedSequence_pixel {i j k : Nat} (hi : i < s.reqH.toNat) (hj : j < s.reqW.toNat) (hk : k < bpp s.reqFmt) :
    (encodedSequence s)[(i * s.reqW.toNat + j) * bpp s.reqFmt + k]? = (pixelBytes s i j)[k]? := by
  have hrow : j * bpp s.reqFmt + k < s.reqW.toNat * bpp s.reqFmt := by
    have hle := Nat.mul_le_mul_right (bpp s.reqFmt) hj
    rw [Nat.succ_mul] at hle
    omega
  rw [Nat.add_mul, Nat.mul_assoc, Nat.add_assoc, encodedSequence, getElem?_flatMap_range (row_length hf) hi hrow,
    getElem?_flatMap_range (pixelBytes_length hf i) hj hk]

/-- EncByte(k) is E[k]. -/
theorem encodedSequence_getElem? {k : Nat} (hk : k < payloadBytes s.reqH s.reqW s.reqFmt) :
    (encodedSequence s)[k]? = some (encByte s k) := by
  have hbpp : 0 < bpp s.reqFmt := by rcases hf with h | h | h <;> rw [h] <;> decide
  have hpixel : k / bpp s.reqFmt < s.reqH.toNat * s.reqW.toNat := (Nat.div_lt_iff_lt_mul hbpp).mpr hk
  have hW : 0 < s.reqW.toNat := Nat.pos_of_ne_zero fun h => by
    rw [h, Nat.mul_zero] at hpixel
    exact Nat.not_lt_zero _ hpixel
  have hplace : k = (k / bpp s.reqFmt / s.reqW.toNat * s.reqW.toNat + k / bpp s.reqFmt % s.reqW.toNat) * bpp s.reqFmt +
      k % bpp s.reqFmt := by
    rw [Nat.div_add_mod', Nat.div_add_mod']
  have hbyte := encodedSequence_pixel hf (k := k % bpp s.reqFmt) ((Nat.div_lt_iff_lt_mul hW).mpr hpixel)
    (Nat.mod_lt (k / bpp s.reqFmt) hW) (Nat.mod_lt k hbpp)
  rw [← hplace] at hbyte
  have hlength := pixelBytes_length hf (k / bpp s.reqFmt / s.reqW.toNat) (k / bpp s.reqFmt % s.reqW.toNat)
  rw [hbyte, encByte, List.getD_eq_getElem?_getD, List.getElem?_eq_getElem (by rw [hlength]; exact Nat.mod_lt k hbpp),
    Option.getD_some]

end

/-- A number that is a byte's is read back from the byte. -/
theorem ofNat_of_toNat_eq {q : Byte} {n : Nat} (h : q.toNat = n) : BitVec.ofNat 8 n = q := by
  rw [← h, BitVec.ofNat_toNat, BitVec.setWidth_eq]

/-- Settles O26: E is rows of pixels of one length; a pixel's bytes are its row of R131. -/
theorem encByteIsEncodedSequence : Obligations.EncByteIsEncodedSequence := by
  unfold Obligations.EncByteIsEncodedSequence
  refine ⟨fun s hf => ⟨encodedSequence_length hf, fun k hk => encodedSequence_getElem? hf hk, fun i hi j hj =>
    ⟨pixelBytes_length hf i j, fun k hk => encodedSequence_pixel hf hi hj hk⟩⟩, ?_⟩
  intro s i j q0 q1 q2 _ _ _ _ h0 h1 h2
  have hq0 := ofNat_of_toNat_eq h0
  have hq1 := ofNat_of_toNat_eq h1
  have hq2 := ofNat_of_toNat_eq h2
  have hluma : (BitVec.ofNat 8 (luma q0.toNat q1.toNat q2.toNat)).toNat = luma q0.toNat q1.toNat q2.toNat := by
    have hle := luma_le_byte (Nat.le_of_lt_succ q0.isLt) (Nat.le_of_lt_succ q1.isLt) (Nat.le_of_lt_succ q2.isLt)
    rw [BitVec.toNat_ofNat]
    omega
  refine ⟨fun hc hf => ?_, fun hc hf => ?_, fun hc hf => ?_, fun hc hf => ?_, fun hc hf => ?_, fun hc hf => ?_⟩ <;>
    rw [pixelBytes, hc, hf]
  · rw [← hq0]
    rfl
  · rw [← hluma, h0, h1, h2]
    rfl
  · rw [← hq0]
    rfl
  · rw [← hq0, ← hq1, ← hq2]
    rfl
  · rw [← hq0]
    rfl
  · rw [← hq0, ← hq1, ← hq2]
    rfl

end Sys2Proof.Proofs

namespace Sys2Proof.Proofs

open Sys2Proof.Machine Sys2Proof.Laws

/-! ### Marker pairs in a list of bytes -/

/-- The marker's first byte, where the scanner has it. -/
def heldByte (seen : Bool) : List Byte := if seen then [0x53] else []

theorem hasMarker_tail {b : Byte} {bs : List Byte} (h : hasMarker (b :: bs) = false) : hasMarker bs = false := by
  cases bs with
  | nil => rfl
  | cons d bs => exact (Bool.or_eq_false_iff.mp h).2

/-- Where no pair ends with b, the scanner holds b alone, and no pair stands in what follows. -/
theorem hasMarker_held {seen : Bool} {b : Byte} {bs : List Byte} (h : hasMarker (heldByte seen ++ b :: bs) = false) :
    ¬(seen = true ∧ b = 0x54) ∧ hasMarker (heldByte (b == 0x53) ++ bs) = false := by
  have hrest : hasMarker (b :: bs) = false := by
    cases seen
    · exact h
    · exact hasMarker_tail h
  constructor
  · rintro ⟨rfl, rfl⟩
    exact nomatch h
  · by_cases hb : b = 0x53
    · rw [hb] at hrest ⊢
      exact hrest
    · rw [beq_eq_false_iff_ne.mpr hb]
      exact hasMarker_tail hrest

/-- The marker's first byte at the end makes no pair. -/
theorem hasMarker_append_first {bs : List Byte} (h : hasMarker bs = false) : hasMarker (bs ++ [0x53]) = false := by
  induction bs with
  | nil => rfl
  | cons b bs ih =>
    have htail := ih (hasMarker_tail h)
    cases bs with
    | nil => exact Bool.or_eq_false_iff.mpr ⟨Bool.and_false _, rfl⟩
    | cons d bs => exact Bool.or_eq_false_iff.mpr ⟨(Bool.or_eq_false_iff.mp h).1, htail⟩

/-- The last byte met decides whether the marker's first byte is held. -/
theorem getLast?_held (seen : Bool) (b : Byte) (bs : List Byte) :
    (heldByte (b == 0x53) ++ bs).getLast? = some 0x53 ↔ (heldByte seen ++ b :: bs).getLast? = some 0x53 := by
  rw [List.getLast?_append_of_ne_nil _ (List.cons_ne_nil b bs)]
  cases bs with
  | nil =>
    by_cases hb : b = 0x53
    · rw [hb]
      exact iff_of_true rfl rfl
    · rw [beq_eq_false_iff_ne.mpr hb]
      exact iff_of_false nofun fun h => hb (Option.some.inj h)
  | cons d bs =>
    rw [List.getLast?_append_of_ne_nil _ (List.cons_ne_nil d bs), List.getLast?_cons_cons]

/-! ### The scanner over a run (40_frame_scanner.md R97 to R101) -/

theorem runCycles_add (n m : Nat) (s : State) : runCycles (n + m) s = andThen (runCycles n s) (runCycles m) := by
  induction n generalizing s with
  | zero => rw [Nat.zero_add]; rfl
  | succ n ih =>
    rw [Nat.succ_add, runCycles_succ, runCycles_succ]
    cases step s with
    | next t => exact ih t
    | _ => rfl

/-- t is in SCAN with the inputs r to come, n bytes counted, and seen in SEEN_M0. -/
structure Scanning (r : List CycleIn) (n : Word) (seen : Bool) (t : State) : Prop where
  inputs : t.inputs = r
  state : t.state = .scan
  scanCount : t.scanCount = n
  seenM0 : t.seenM0 = seen

/-- A cycle of SCAN is the offered byte on a scanner that stands where it stood. -/
theorem step_scanning {s : State} {c : CycleIn} {r : List CycleIn} {n : Word} {seen : Bool}
    (h : Scanning (c :: r) n seen s) (hc : undisturbed c = true) :
    ∃ u, Scanning r n seen u ∧ step s = .next (commit (withPorts c (outputs s c) (takeOffered c u))) := by
  have hstep := step_taking r (.inl h.state) (rxReady_of_undisturbed (.inl h.state) hc)
  rw [h.state, timeOut_scan, fed_of_inputs h.inputs] at hstep
  refine ⟨accessed s c r, ?_, hstep⟩
  obtain ⟨_, _, _, _, _, _, _, e, -⟩ := accessed_accessed s c r
  rw [e]
  exact ⟨rfl, h.state, h.scanCount, h.seenM0⟩

/-- A cycle of SCAN that completes no pair. -/
theorem step_noise {s : State} {c : CycleIn} {r : List CycleIn} {n : Word} {seen : Bool}
    (h : Scanning (c :: r) n seen s) (hc : undisturbed c = true)
    (hno : c.rxValid = true → ¬(seen = true ∧ c.rxData = 0x54)) :
    ∃ t, step s = .next t ∧
      Scanning r (n + if c.rxValid = true then 1 else 0) (if c.rxValid = true then c.rxData == 0x53 else seen) t := by
  obtain ⟨u, hu, hstep⟩ := step_scanning h hc
  refine ⟨_, hstep, ?_⟩
  rcases takeOffered_scan_cases c hu.state with ⟨hv, e⟩ | ⟨hv, hm, hb, e⟩ | ⟨hv, -, e⟩ <;> rw [e, hv]
  · exact ⟨hu.inputs, hu.state, hu.scanCount.trans (BitVec.add_zero n).symm, hu.seenM0⟩
  · exact absurd ⟨hu.seenM0.symm.trans hm, hb⟩ (hno hv)
  · exact ⟨hu.inputs, hu.state, congrArg (· + 1) hu.scanCount, rfl⟩

/-- The cycle of SCAN that completes the pair. -/
theorem step_match {s : State} {c : CycleIn} {r : List CycleIn} {n : Word} (h : Scanning (c :: r) n true s)
    (hc : undisturbed c = true) (hv : c.rxValid = true) (hb : c.rxData = 0x54) :
    ∃ t, step s = .next t ∧ t.state = .hdr ∧ t.hdrIdx = 0 ∧ t.scanCount = n + 1 ∧ t.seenM0 = false := by
  obtain ⟨u, hu, hstep⟩ := step_scanning h hc
  refine ⟨_, hstep, ?_⟩
  rcases takeOffered_scan_cases c hu.state with ⟨hno, -⟩ | ⟨-, -, -, e⟩ | ⟨-, hno, -⟩
  · exact nomatch hv.symm.trans hno
  · rw [e]
    exact ⟨rfl, rfl, congrArg (· + 1) hu.scanCount, rfl⟩
  · exact absurd ⟨hu.seenM0, hb⟩ hno

/-- Through bytes without a pair the scanner stays in SCAN and counts them. -/
theorem runCycles_scanning (cs : List CycleIn) :
    ∀ {s : State} {r : List CycleIn} {n : Word} {seen : Bool}, Scanning (cs ++ r) n seen s →
      hasMarker (heldByte seen ++ offeredBytes cs) = false → (∀ c ∈ cs, undisturbed c = true) →
      ∃ t, runCycles cs.length s = .next t ∧
        Scanning r (n + BitVec.ofNat 32 (offeredBytes cs).length)
          (decide ((heldByte seen ++ offeredBytes cs).getLast? = some 0x53)) t := by
  induction cs with
  | nil =>
    intro s r n seen h _ _
    refine ⟨s, rfl, h.inputs, h.state, h.scanCount.trans (BitVec.add_zero n).symm, h.seenM0.trans ?_⟩
    cases seen <;> rfl
  | cons c cs ih =>
    intro s r n seen h hmarker hcs
    have hc := hcs c List.mem_cons_self
    have hrest : ∀ d ∈ cs, undisturbed d = true := fun d hd => hcs d (List.mem_cons_of_mem c hd)
    rw [List.length_cons, runCycles_succ]
    cases hv : c.rxValid with
    | false =>
      obtain ⟨u, hstep, hu⟩ := step_noise h hc fun h => nomatch hv.symm.trans h
      rw [hv, if_neg nofun, if_neg nofun] at hu
      rw [hstep, andThen_next, offeredBytes_of_idle hv]
      rw [offeredBytes_of_idle hv] at hmarker
      exact (BitVec.add_zero n) ▸ ih hu hmarker hrest
    | true =>
      rw [offeredBytes_of_valid hv] at hmarker ⊢
      obtain ⟨hno, hmarker⟩ := hasMarker_held hmarker
      obtain ⟨u, hstep, hu⟩ := step_noise h hc fun _ => hno
      rw [hv, if_pos rfl, if_pos rfl] at hu
      rw [hstep, andThen_next]
      obtain ⟨t, hrun, ht⟩ := ih hu hmarker hrest
      refine ⟨t, hrun, ht.inputs, ht.state, ht.scanCount.trans ?_, ht.seenM0.trans (decide_eq_decide.mpr ?_)⟩
      · rw [List.length_cons, Nat.add_comm _ 1, BitVec.ofNat_add, ← BitVec.add_assoc]
        rfl
      · exact getLast?_held seen _ _

/-- The cycles of an offer at the end. -/
theorem exists_last_of_endsOffering {cs : List CycleIn} (h : endsOffering cs = true) :
    ∃ ds c, cs = ds ++ [c] ∧ c.rxValid = true := by
  rcases List.eq_nil_or_concat cs with rfl | ⟨ds, c, rfl⟩
  · exact nomatch h
  · refine ⟨ds, c, List.concat_eq_append, ?_⟩
    simpa [endsOffering] using h

theorem offeredBytes_append (cs ds : List CycleIn) : offeredBytes (cs ++ ds) = offeredBytes cs ++ offeredBytes ds := by
  simp only [offeredBytes, List.filter_append, List.map_append]

/-- Settles O13: by induction over the cycles the scanner stays in SCAN through bytes without a pair; the pair's first byte
makes none, and is held when the second comes. -/
theorem scannerFindsFirstMarker : Obligations.ScannerFindsFirstMarker := by
  unfold Obligations.ScannerFindsFirstMarker
  intro s bs cs hs hseen hmarker hcs
  refine ⟨fun hoffered => ?_, fun hoffered hend => ?_⟩
  · have hstart : Scanning (cs ++ []) s.scanCount false (s.fed cs) :=
      ⟨(List.append_nil cs).symm, hs, rfl, hseen⟩
    obtain ⟨t, hrun, ht⟩ := runCycles_scanning cs hstart (hoffered ▸ hmarker) hcs
    rw [hoffered] at ht
    exact ⟨t, hrun, ht.state, ht.scanCount, ht.seenM0⟩
  · obtain ⟨ds, c, rfl, hv⟩ := exists_last_of_endsOffering hend
    have hlast : offeredBytes [c] = [c.rxData] := offeredBytes_of_valid hv []
    have hsplit : offeredBytes ds ++ [c.rxData] = (bs ++ [0x53]) ++ [0x54] := by
      rw [← hlast, ← offeredBytes_append, hoffered, List.append_assoc]
      rfl
    obtain ⟨hds, hb⟩ := List.append_inj' hsplit rfl
    have hstart : Scanning (ds ++ [c]) s.scanCount false (s.fed (ds ++ [c])) := ⟨rfl, hs, rfl, hseen⟩
    have hno : hasMarker (heldByte false ++ offeredBytes ds) = false := by
      rw [hds]
      exact hasMarker_append_first hmarker
    obtain ⟨t, hrun, ht⟩ := runCycles_scanning ds hstart hno fun d hd => hcs d (List.mem_append_left _ hd)
    have hheld : decide ((heldByte false ++ offeredBytes ds).getLast? = some 0x53) = true := by
      rw [hds]
      exact decide_eq_true List.getLast?_concat
    rw [hheld, hds] at ht
    obtain ⟨u, hstep, hstate, hidx, hcount, hclear⟩ :=
      step_match ht (hcs c (List.mem_append_right _ List.mem_cons_self)) hv (List.cons.inj hb).1
    refine ⟨u, ?_, hstate, hidx, hcount.trans ?_, hclear⟩
    · rw [List.length_append, runCycles_add, hrun, andThen_next, List.length_singleton, runCycles_succ, hstep]
      rfl
    · rw [List.length_append, List.length_singleton, BitVec.add_assoc, BitVec.ofNat_add bs.length 2,
        BitVec.ofNat_add bs.length 1, BitVec.add_assoc]
      rfl

end Sys2Proof.Proofs

namespace Sys2Proof.Proofs

open Sys2Proof.Machine Sys2Proof.Laws

/-! ### The RGB565 decode over a run (41_codec_decode.md R115, R117) -/

/-- The first p pixels of the wire bytes stand expanded in m, which beyond them is m0. -/
def PixelsStored (wire : List Byte) (m0 m : Memory) (p : Nat) : Prop :=
  (∀ i < p, ∀ ch < 3, ∀ b0 b1 : Byte, wire[2 * i]? = some b0 → wire[2 * i + 1]? = some b1 →
    Memory.read m (3 * i + ch) = (unpack565 (b0 ++ b1))[ch]?) ∧
  ∀ k, 3 * p ≤ k → Memory.read m k = Memory.read m0 k

theorem pixelsStored_zero (wire : List Byte) (m : Memory) : PixelsStored wire m m 0 :=
  ⟨fun _ h => absurd h (Nat.not_lt_zero _), fun _ _ => rfl⟩

/-- One more pixel, inside the buffer. -/
theorem PixelsStored.succ {wire : List Byte} {m0 m : Memory} {n p : Nat} {b0 b1 : Byte}
    (h : PixelsStored wire m0 m p) (hn : 3 * p + 3 ≤ n) (h0 : wire[2 * p]? = some b0) (h1 : wire[2 * p + 1]? = some b1) :
    PixelsStored wire m0 (storeBytes n m (3 * p) (unpack565 (b0 ++ b1))) (p + 1) := by
  obtain ⟨hstored, hbeyond⟩ := h
  have hlength : (unpack565 (b0 ++ b1)).length = 3 := rfl
  refine ⟨fun i hi ch hch c0 c1 hc0 hc1 => ?_, fun k hk => ?_⟩ <;> rw [read_storeBytes, hlength]
  · by_cases hlast : i = p
    · rw [hlast] at hc0 hc1 ⊢
      obtain rfl := Option.some.inj (h0.symm.trans hc0)
      obtain rfl := Option.some.inj (h1.symm.trans hc1)
      rw [if_pos (by omega), Nat.add_sub_cancel_left]
    · rw [if_neg (by omega)]
      exact hstored i (by omega) ch hch c0 c1 hc0 hc1
  · rw [if_neg (by omega)]
    exact hbeyond k (by omega)

/-- In READING of an h by w RGB565 Request whose wire bytes are those given, the bytes rest are still to come; the pixels
that are complete are stored, and PEND holds the first byte of one that is not. -/
structure DecodingPacked (wire : List Byte) (m0 : Memory) (h w : Half) (rest : List Byte) (s : State) : Prop where
  reading : s.state = .reading
  packed : s.reqFmt = 2
  height : s.reqH = h
  width : s.reqW = w
  fits : 3 * (h.toNat * w.toNat) ≤ s.bufBytes
  length : wire.length = 2 * (h.toNat * w.toNat)
  payload : s.payloadSize.toNat = wire.length
  rest_eq : wire.drop s.xferCount.toNat = rest
  stored : PixelsStored wire m0 s.dstBuf (s.xferCount.toNat / 2)
  held : s.xferCount.toNat % 2 = 1 → wire[s.xferCount.toNat - 1]? = some s.pend

/-- t is what the decode leaves. -/
def LeavesPixels (wire : List Byte) (m0 : Memory) (h w : Half) (t : State) : Prop :=
  t.state = .idle ∧ t.dstH = h ∧ t.dstW = w ∧ t.dstC = 3 ∧ PixelsStored wire m0 t.dstBuf (h.toNat * w.toNat)

section
variable {wire : List Byte} {m0 : Memory} {h w : Half} {b : Byte} {rest : List Byte} {s : State}

/-- Neither the begin of a cycle nor the host takes a payload byte. -/
theorem DecodingPacked.accessed (hs : DecodingPacked wire m0 h w rest s) (c : CycleIn) (r : List CycleIn) :
    DecodingPacked wire m0 h w rest (hostAccess .reading c (sampled s r)) := by
  obtain ⟨_, _, _, _, _, _, _, e⟩ := hostAccess_hostWrote .reading c (sampled s r)
  rw [e]
  exact { hs with }

/-- The next byte is the wire byte at the count, which does not wrap around. -/
theorem DecodingPacked.next (hs : DecodingPacked wire m0 h w (b :: rest) s) :
    wire[s.xferCount.toNat]? = some b ∧ wire.drop (s.xferCount.toNat + 1) = rest ∧
      s.xferCount.toNat + 1 + rest.length = s.payloadSize.toNat ∧
      (s.xferCount + 1).toNat = s.xferCount.toNat + 1 := by
  have hrest := hs.rest_eq
  have hlength := congrArg List.length hrest
  rw [List.length_drop, List.length_cons, ← hs.payload] at hlength
  refine ⟨?_, ?_, by omega, by bv_omega⟩
  · rw [← List.head?_drop, hrest, List.head?_cons]
  · rw [← List.tail_drop, hrest, List.tail_cons]

/-- The byte step before it advances: the byte is held, or completes its pixel. -/
theorem DecodingPacked.readPackedByte_eq (hs : DecodingPacked wire m0 h w (b :: rest) s) :
    ∃ m held, readPackedByte b s = decodeAdvance { s with dstBuf := m, pend := held } ∧
      PixelsStored wire m0 m ((s.xferCount.toNat + 1) / 2) ∧
      ((s.xferCount.toNat + 1) % 2 = 1 → wire[s.xferCount.toNat]? = some held) := by
  obtain ⟨hbyte, -, hcount, -⟩ := hs.next
  have hlength := hs.length
  have hpayload := hs.payload
  have hfits := hs.fits
  rcases readPackedByte_cases b s with ⟨heven, e⟩ | ⟨hodd, e⟩
  · have hpixel : (s.xferCount.toNat + 1) / 2 = s.xferCount.toNat / 2 := by omega
    exact ⟨s.dstBuf, b, e, hpixel ▸ hs.stored, fun _ => hbyte⟩
  · have hpixel : (s.xferCount.toNat + 1) / 2 = s.xferCount.toNat / 2 + 1 := by omega
    have hplace : (s.xferCount.toNat - 1) / 2 = s.xferCount.toNat / 2 := by omega
    have hfirst : wire[2 * (s.xferCount.toNat / 2)]? = some s.pend := by
      have hindex : 2 * (s.xferCount.toNat / 2) = s.xferCount.toNat - 1 := by omega
      rw [hindex, hs.held hodd]
    have hsecond : wire[2 * (s.xferCount.toNat / 2) + 1]? = some b := by
      have hindex : 2 * (s.xferCount.toNat / 2) + 1 = s.xferCount.toNat := by omega
      rw [hindex, hbyte]
    rw [hplace] at e
    exact ⟨_, s.pend, e, hpixel ▸ hs.stored.succ (by omega) hfirst hsecond, fun h => by omega⟩

/-- A byte before the last: the decode goes on. -/
theorem DecodingPacked.byte (hs : DecodingPacked wire m0 h w (b :: rest) s) (hrest : rest ≠ []) :
    DecodingPacked wire m0 h w rest (payloadByte b s) := by
  obtain ⟨-, hdrop, hcount, hsucc⟩ := hs.next
  obtain ⟨m, held, e, hstored, hheld⟩ := hs.readPackedByte_eq
  have hlen := List.length_pos_iff.mpr hrest
  rw [payloadByte_packed b hs.packed, e]
  rcases decodeAdvance_cases { s with dstBuf := m, pend := held } with ⟨hlast, -⟩ | ⟨-, e⟩
  · have hlast : s.xferCount.toNat + 1 = s.payloadSize.toNat := hsucc.symm.trans (congrArg BitVec.toNat hlast)
    omega
  · rw [e]
    exact { hs with
      rest_eq := hsucc ▸ hdrop
      stored := hsucc ▸ hstored
      held := hsucc ▸ hheld }

/-- The last byte completes the decode. -/
theorem DecodingPacked.lastByte (hs : DecodingPacked wire m0 h w [b] s) : LeavesPixels wire m0 h w (payloadByte b s) := by
  obtain ⟨-, -, hcount, hsucc⟩ := hs.next
  obtain ⟨m, held, e, hstored, -⟩ := hs.readPackedByte_eq
  rw [List.length_nil, Nat.add_zero] at hcount
  rw [payloadByte_packed b hs.packed, e]
  rcases decodeAdvance_cases { s with dstBuf := m, pend := held } with ⟨-, e⟩ | ⟨hmore, -⟩
  · have hpixels : (s.xferCount.toNat + 1) / 2 = h.toNat * w.toNat := by
      have hpayload := hs.payload
      have hlength := hs.length
      omega
    have hchannels : BitVec.ofNat 2 (nch s.reqFmt) = 3 := by
      rw [hs.packed]
      rfl
    rw [e]
    exact ⟨rfl, hs.height, hs.width, hchannels, hpixels ▸ hstored⟩
  · exact absurd (BitVec.eq_of_toNat_eq (hsucc.trans hcount)) hmore

/-- A cycle that is not the last takes the byte it offers, if it offers one. -/
theorem DecodingPacked.cycle {c : CycleIn} {r : List CycleIn}
    (hs : DecodingPacked wire m0 h w (offeredBytes (c :: r)) s) (hr : offeredBytes r ≠ []) :
    DecodingPacked wire m0 h w (offeredBytes r) (received s c r) := by
  have hu := hs.accessed c r
  unfold received
  cases hv : c.rxValid with
  | true =>
    rw [offeredBytes_of_valid hv] at hu
    rw [takePayload_of_valid hv]
    exact hu.byte hr
  | false =>
    rw [offeredBytes_of_idle hv] at hu
    rwa [takePayload_of_idle hv]

/-- The last cycle completes the decode. -/
theorem DecodingPacked.lastCycle {c : CycleIn} (hs : DecodingPacked wire m0 h w (offeredBytes [c]) s)
    (hv : c.rxValid = true) : LeavesPixels wire m0 h w (received s c []) := by
  have hu := hs.accessed c []
  rw [offeredBytes_of_valid hv] at hu
  rw [received, takePayload_of_valid hv]
  exact hu.lastByte

end

/-- From wherever in the payload the decode is, cycles that offer the rest of it complete it. -/
theorem runCycles_leavesPixels {wire : List Byte} {m0 : Memory} {h w : Half} (cs : List CycleIn) :
    ∀ s : State, DecodingPacked wire m0 h w (offeredBytes cs) s → endsOffering cs = true →
      (∀ c ∈ cs, linked c = true) → (∀ c ∈ cs.dropLast, c.rxTimeout = false) →
      ∃ t, runCycles cs.length (s.fed cs) = .next t ∧ LeavesPixels wire m0 h w t := by
  induction cs with
  | nil => exact fun _ _ hend => nomatch hend
  | cons c r ih =>
    intro s hs hend hlinked hquiet
    have hstep := step_reading r hs.reading (by rw [hs.packed]; decide) (hlinked c List.mem_cons_self)
    rw [List.length_cons, runCycles_succ, hstep, andThen_next]
    cases r with
    | nil =>
      have hdone := hs.lastCycle ((endsOffering_singleton c).symm.trans hend)
      have hidle : (received s c []).state = .idle := hdone.1
      rw [timeOut_reading_of_done _ c (by rw [hidle]; nofun)]
      exact ⟨_, rfl, hdone⟩
    | cons d r =>
      rw [timeOut_of_none (hquiet c List.mem_cons_self)]
      have hnext := hs.cycle (offeredBytes_ne_nil hend)
      have hinputs : (commit (withPorts c (outputs s c) (received s c (d :: r)))).inputs = d :: r :=
        (received_effect c (d :: r) hs.reading).1
      have hrun := ih (commit (withPorts c (outputs s c) (received s c (d :: r)))) { hnext with } hend
        (fun e he => hlinked e (List.mem_cons_of_mem c he)) fun e he => hquiet e (List.mem_cons_of_mem c he)
      rwa [fed_of_inputs hinputs] at hrun

/-- Settles O23: by induction over the cycles, each complete pixel is stored expanded, and every pixel lies in the
buffer. -/
theorem packedDecodeExpandsPixels : Obligations.PackedDecodeExpandsPixels := by
  unfold Obligations.PackedDecodeExpandsPixels
  intro s cs hinv hs hpacked hcount hlinked hquiet hlength hend
  obtain ⟨-, hsized, hfits⟩ := readingBounds_of_invariant hinv hs
  rw [hpacked, payloadBytes_rgb565] at hsized
  rw [hpacked] at hfits
  have hfits : 3 * (s.reqH.toNat * s.reqW.toNat) ≤ s.bufBytes := (Nat.mul_comm _ _).trans_le hfits
  have hzero : s.xferCount.toNat = 0 := congrArg BitVec.toNat hcount
  have hstart : DecodingPacked (offeredBytes cs) s.dstBuf s.reqH s.reqW (offeredBytes cs) s :=
    { reading := hs, packed := hpacked, height := rfl, width := rfl, fits := hfits, length := hlength.trans hsized,
      payload := hlength.symm, rest_eq := by rw [hzero, List.drop_zero]
      stored := by rw [hzero]; exact pixelsStored_zero _ _
      held := fun hodd => by rw [hzero] at hodd; exact nomatch hodd }
  obtain ⟨t, hrun, hidle, hh, hw, hch, hstored, hbeyond⟩ := runCycles_leavesPixels cs s hstart hend hlinked hquiet
  exact ⟨t, hrun, hidle, hh, hw, hch, hstored, hbeyond⟩

end Sys2Proof.Proofs

namespace Sys2Proof.Proofs

open Sys2Proof.Machine Sys2Proof.Laws

/-! ### The transmit stream over a run (42_codec_encode.md R137, R138) -/

/-- In WRITING, begun with the registers of s0, the first XFER_COUNT bytes of E have been sent. -/
structure Sending (s0 s : State) : Prop where
  writing : s.state = .writing
  format : s.reqFmt = 1 ∨ s.reqFmt = 2 ∨ s.reqFmt = 3
  payload : s.payloadSize = s0.payloadSize
  sized : s.payloadSize.toNat = payloadBytes s.reqH s.reqW s.reqFmt
  count : s.xferCount.toNat < s.payloadSize.toNat
  sequence : encodedSequence s = encodedSequence s0
  stream : s.txLog = s0.txLog ++ (encodedSequence s0).take s.xferCount.toNat

/-- All of E has been sent, and the engine is in IDLE. -/
def AllSent (s0 s : State) : Prop := s.state = .idle ∧ s.txLog = s0.txLog ++ encodedSequence s0

section
variable {s0 s : State}

/-- In WRITING the host access leaves E and the stream. -/
theorem Sending.hostAccess (h : Sending s0 s) (c : CycleIn) (r : List CycleIn) : Sending s0 (accessed s c r) := by
  obtain ⟨_, _, _, _, _, _, _, e, hkeep, -⟩ := accessed_accessed s c r
  obtain ⟨rfl, rfl, rfl, rfl⟩ := hkeep (.inl h.writing)
  rw [e]
  exact { h with }

/-- The byte sent is the next of E. -/
theorem Sending.next (h : Sending s0 s) :
    (withSent s).txLog = s0.txLog ++ (encodedSequence s0).take (s.xferCount.toNat + 1) := by
  have hbyte := encodedSequence_getElem? h.format (h.sized ▸ h.count)
  rw [h.sequence] at hbyte
  rw [List.take_add_one, hbyte, ← List.append_assoc, ← h.stream]
  rfl

theorem Sending.sends (h : Sending s0 s) (hmore : s.xferCount + 1 ≠ s.payloadSize) : Sending s0 (withSent s) := by
  have hcount := h.count
  have hsucc : (s.xferCount + 1).toNat = s.xferCount.toNat + 1 := by bv_omega
  have hne : s.xferCount.toNat + 1 ≠ s.payloadSize.toNat := fun he => hmore (BitVec.eq_of_toNat_eq (hsucc.trans he))
  have hlt : (s.xferCount + 1).toNat < s.payloadSize.toNat := by omega
  exact { h with
    count := hlt
    stream := h.next.trans (by rw [← hsucc]; rfl) }

theorem Sending.completes (h : Sending s0 s) (hlast : s.xferCount + 1 = s.payloadSize) :
    AllSent s0 (encodeComplete (withSent s)) := by
  have hcount := h.count
  have hlength : (encodedSequence s0).length = s.xferCount.toNat + 1 := by
    rw [← h.sequence, encodedSequence_length h.format, ← h.sized, ← hlast]
    bv_omega
  exact ⟨rfl, h.next.trans (by rw [← hlength, List.take_length])⟩

/-- A cycle of WRITING without a failure. -/
theorem Sending.cycle (h : Sending s0 s) {c : CycleIn} (r : List CycleIn) (hc : linked c = true)
    (hok : c.txFail = false) :
    ∃ t, step (s.fed (c :: r)) = .next t ∧ t.inputs = r ∧ (Sending s0 t ∨ AllSent s0 t) := by
  have hu := h.hostAccess c r
  have hstep := step_writing r h.writing hc
  have hsent : sent s c r = sendOffered c (accessed s c r) := by rw [sent, ← h.writing]; rfl
  have hinputs : (accessed s c r).inputs = r := by
    obtain ⟨_, _, _, _, _, _, _, e, -⟩ := accessed_accessed s c r
    rw [e]
    rfl
  obtain ⟨rdy, e⟩ := encoderPhase_eq_encRdy (withPorts c (outputs s c) (sendOffered c (accessed s c r)))
  rw [failWrite_of_none hok, hsent, e] at hstep
  refine ⟨_, hstep, ?_⟩
  rcases sendOffered_cases c (accessed s c r) with ⟨-, e⟩ | ⟨-, hlast, e⟩ | ⟨-, hmore, e⟩ <;> rw [e]
  · exact ⟨hinputs, .inl { hu with }⟩
  · exact ⟨hinputs, .inr (hu.completes hlast)⟩
  · exact ⟨hinputs, .inl { hu.sends hmore with }⟩

/-- In IDLE nothing is sent, and without a POLL the engine stays there. -/
theorem AllSent.cycle (h : AllSent s0 s) {c : CycleIn} (r : List CycleIn) (hc : linked c = true)
    (hpoll : hostCommand c ≠ some .poll) :
    ∃ t, step (s.fed (c :: r)) = .next t ∧ t.inputs = r ∧ AllSent s0 t := by
  obtain ⟨hs, hlog⟩ := h
  obtain ⟨hup, hr⟩ := linked_iff.mp hc
  obtain ⟨t, hstep, ht⟩ := leads s c r
  refine ⟨t, hstep, ?_⟩
  cases ht with
  | reset hr' => exact nomatch hr.symm.trans hr'
  | linkLost _ hdown _ => exact nomatch hup.symm.trans hdown
  | command _ hw hacc _ =>
    rcases commandAccepted_cases hw hacc with ⟨hcmd, -⟩ | ⟨-, hs', -⟩ | ⟨-, hs', -⟩ | ⟨-, hs' | hs'⟩
    · exact absurd hcmd hpoll
    all_goals exact nomatch hs.symm.trans hs'
  | quiet _ _ =>
    obtain ⟨_, _, _, _, _, _, _, e, -⟩ := accessed_accessed s c r
    rw [e]
    exact ⟨rfl, hs, hlog⟩
  | scan _ hs' => exact nomatch hs.symm.trans hs'
  | hdr _ hs' => exact nomatch hs.symm.trans hs'
  | reading _ hs' => exact nomatch hs.symm.trans hs'
  | writing _ hs' => exact nomatch hs.symm.trans hs'

end

theorem runCycles_sending {s0 : State} (cs : List CycleIn) :
    ∀ s : State, (Sending s0 s ∨ AllSent s0 s) →
      (∀ c ∈ cs, linked c = true ∧ c.txFail = false ∧ hostCommand c ≠ some .poll) →
      ∃ t, runCycles cs.length (s.fed cs) = .next t ∧ (Sending s0 t ∨ AllSent s0 t) := by
  induction cs with
  | nil => exact fun s hs _ => ⟨s.fed [], rfl, hs.imp (fun h => { h with }) fun h => h⟩
  | cons c r ih =>
    intro s hs hcs
    obtain ⟨hc, hok, hpoll⟩ := hcs c List.mem_cons_self
    have hcycle : ∃ t, step (s.fed (c :: r)) = .next t ∧ t.inputs = r ∧ (Sending s0 t ∨ AllSent s0 t) := by
      rcases hs with hs | hs
      · exact hs.cycle r hc hok
      · obtain ⟨t, hstep, hinputs, ht⟩ := hs.cycle r hc hpoll
        exact ⟨t, hstep, hinputs, .inr ht⟩
    obtain ⟨t, hstep, hinputs, ht⟩ := hcycle
    have hrun := ih t ht fun d hd => hcs d (List.mem_cons_of_mem c hd)
    rw [fed_of_inputs hinputs] at hrun
    rwa [List.length_cons, runCycles_succ, hstep, andThen_next]

/-- Settles O27: by induction over the cycles, each byte sent is the next of E. -/
theorem transmitStreamIsEncodedSequence : Obligations.TransmitStreamIsEncodedSequence := by
  unfold Obligations.TransmitStreamIsEncodedSequence
  intro s cs hinv hs hcount hcs
  have hlive : s.state.live = true := by rw [hs]; rfl
  have hstart : Sending s s :=
    { writing := hs, format := hinv.format_legal hlive, payload := rfl, sized := hinv.payload_sized hlive
      count := hinv.transfer_open (by rw [hs]; rfl), sequence := rfl
      stream := by rw [hcount]; exact (List.append_nil _).symm }
  obtain ⟨t, hrun, ht⟩ := runCycles_sending cs s (.inl hstart) hcs
  refine ⟨t, hrun, ht.imp (fun h : Sending s t => ⟨h.writing, h.payload ▸ h.count, h.stream⟩) fun h => h⟩

end Sys2Proof.Proofs

namespace Sys2Proof.Proofs

open Sys2Proof.Machine Sys2Proof.Laws

/-! ### Runs under an environment -/

/-- The state a step answers. -/
def nextState (s : State) : State :=
  match step s with
  | .next t => t
  | _ => s

theorem step_eq_nextState (s : State) : step s = .next (nextState s) := by
  obtain ⟨t, ht, -⟩ := step_answers s
  rw [nextState, ht]

/-- The states of the run from s under env. -/
def stateAt (env : Nat → CycleIn) (s : State) : Nat → State
  | 0 => s
  | n + 1 => nextState ((stateAt env s n).fed [env n])

theorem runUnder_eq_stateAt (env : Nat → CycleIn) (s : State) (n : Nat) : runUnder env n s = .next (stateAt env s n) := by
  induction n with
  | zero => rfl
  | succ n ih => rw [runUnder_succ ih, step_eq_nextState, stateAt]

theorem stateAt_result (env : Nat → CycleIn) (s : State) (n : Nat) :
    CycleResult (stateAt env s n) (env n) [] (stateAt env s (n + 1)) :=
  cycleResult_of_step_fed (step_eq_nextState _)

theorem stateAt_invariant (env : Nat → CycleIn) {s : State} (h : Invariant s) (n : Nat) : Invariant (stateAt env s n) := by
  induction n with
  | zero => exact h
  | succ n ih =>
    exact stepKeepsInvariant ((stateAt env s n).fed [env n]) _ { ih with } (step_eq_nextState _)

/-- The transition table along a run. -/
theorem stateAt_table (env : Nat → CycleIn) {s : State} (h : Invariant s) (n : Nat) :
    (stateAt env s (n + 1)).state = tableNext (stateAt env s n) (env n) :=
  transitionTable ((stateAt env s n).fed [env n]) _ { stateAt_invariant env h n with } (step_eq_nextState _)

theorem recurs_stateAt {env : Nat → CycleIn} {s : State} {P : State → CycleIn → Prop} (h : Recurs s env P) (n : Nat) :
    ∃ k, n ≤ k ∧ P (stateAt env s k) (env k) := by
  obtain ⟨k, hk, hP⟩ := h n
  exact ⟨k, hk, hP _ (runUnder_eq_stateAt env s k)⟩

/-! ### Waits end

A wait in which a number that nothing raises goes down again and again is over some time. -/

/-- Along the run the wait goes on for ever. -/
def Waits (env : Nat → CycleIn) (s : State) (e : EngineState) : Prop := ∀ n, (stateAt env s n).state = e

/-- No number goes down for ever. -/
theorem not_descends {μ : Nat → Nat} (h : ∀ n, ∃ k, μ k < μ n) : False := by
  suffices hbelow : ∀ m n, μ n < m → False from hbelow (μ 0 + 1) 0 (Nat.lt_succ_self _)
  intro m
  induction m with
  | zero => exact fun n hn => Nat.not_lt_zero _ hn
  | succ m ih =>
    intro n hn
    obtain ⟨k, hk⟩ := h n
    exact ih k (by omega)

/-- Nor does one that no cycle raises and a recurring event lowers. -/
theorem not_descends_of_recurs {env : Nat → CycleIn} {s : State} {P : State → CycleIn → Prop} (hP : Recurs s env P)
    {μ : State → Nat} (hle : ∀ n, μ (stateAt env s (n + 1)) ≤ μ (stateAt env s n))
    (hlt : ∀ n, P (stateAt env s n) (env n) → μ (stateAt env s (n + 1)) < μ (stateAt env s n)) : False := by
  refine not_descends (μ := fun n => μ (stateAt env s n)) fun n => ?_
  obtain ⟨k, hk, hevent⟩ := recurs_stateAt hP n
  have hdown : Antitone fun n => μ (stateAt env s n) := antitone_nat_of_succ_le hle
  exact ⟨k + 1, (hlt k hevent).trans_le (hdown hk)⟩

/-- A wait that does not go on for ever ends in a first cycle. -/
theorem exists_end_of_not_waits {env : Nat → CycleIn} {s : State} {e : EngineState} (h0 : s.state = e)
    (h : ¬Waits env s e) : ∃ n, (stateAt env s n).state = e ∧ (stateAt env s (n + 1)).state ≠ e := by
  by_contra hno
  refine h fun n => ?_
  induction n with
  | zero => exact h0
  | succ n ih =>
    by_contra hne
    exact hno ⟨n, ih, hne⟩

/-- Outside HDR a cycle keeps PAYLOAD_SIZE. -/
theorem payloadSize_of_step {s t : State} (c : CycleIn) (hr : c.rst = false) (hs : s.state ≠ .hdr)
    (ht : step (s.fed [c]) = .next t) : t.payloadSize = s.payloadSize := by
  obtain ⟨hrequest, -⟩ := requestAndTagStable (s.fed [c]) t ht hr
  obtain ⟨-, -, -, -, hsize⟩ := hrequest hs
  exact hsize

/-! #### HDR -/

theorem timeOut_of_stays {s0 : EngineState} {idx0 : Fin 6} {c : CycleIn} {v : State}
    (h : (timeOut s0 idx0 c v).state = s0) : timeOut s0 idx0 c v = v := by
  unfold timeOut at h ⊢
  split at h
  · next hfired =>
    rw [if_pos hfired]
    rcases timeoutStep_cases s0 idx0 c.rxValid v with ⟨hs, -, e⟩ | ⟨hs, e⟩ | ⟨-, e⟩
    · rw [e, hs] at h
      exact nomatch h
    · rw [e, hs] at h
      exact nomatch h
    · exact e
  · next hquiet => exact if_neg hquiet

/-- A cycle that stays in HDR. -/
theorem hdrIdx_of_stays {s t : State} {c : CycleIn} {r : List CycleIn} (ht : CycleResult s c r t) (hs : s.state = .hdr)
    (hstays : t.state = .hdr) : t.hdrIdx.val = s.hdrIdx.val + if c.rxValid = true then 1 else 0 := by
  have hu := (accessed_state s c r).trans hs
  have hidx : (accessed s c r).hdrIdx = s.hdrIdx := (hostAccess_sampled s.state c s r).2.2.2.1
  have hsucc : ∀ i : Fin 6, i ≠ 5 → (i + 1).val = i.val + 1 := by decide
  cases ht with
  | reset => exact nomatch hstays
  | linkLost _ _ hu => exact nomatch hu.state_eq.symm.trans hstays
  | command _ hw hacc hu =>
    rw [commit_state, encoderPhase_state] at hstays
    exact absurd (hstays.trans hs.symm) hu.state_ne
  | quiet _ h => rcases h with h | h <;> exact nomatch hs.symm.trans h
  | scan _ h => exact nomatch hs.symm.trans h
  | reading _ h => exact nomatch hs.symm.trans h
  | writing _ h => exact nomatch hs.symm.trans h
  | hdr hc _ =>
    have hstays : (timeOut .hdr s.hdrIdx c (takeOffered c (accessed s c r))).state = .hdr := hstays
    have hquiet := timeOut_of_stays hstays
    rw [hquiet] at hstays ⊢
    cases hv : c.rxValid with
    | false =>
      rw [takeOffered_of_idle hv]
      exact congrArg Fin.val hidx
    | true =>
      rw [takeOffered_of_valid hv, plainByte_hdr _ hu] at hstays ⊢
      have h5 : (accessed s c r).hdrIdx ≠ 5 := fun h5 => by
        rw [hdrByte_last _ _ h5, headerComplete_state] at hstays
        exact headerTarget_ne_hdr _ _ _ _ hstays
      rw [hdrByte_field _ _ h5]
      rw [hidx] at h5
      exact (congrArg (fun i : Fin 6 => (i + 1).val) hidx).trans (hsucc _ h5)

theorem linked_of_tableNext {s : State} {c : CycleIn} (h : tableNext s c ≠ .idle) : linked c = true := by
  by_contra hno
  refine h ?_
  rw [linked_iff, not_and_or] at hno
  unfold tableNext
  rcases hno with hup | hr
  · rw [if_pos (Bool.eq_false_iff.mpr hup), ite_self]
  · rw [if_pos (Bool.not_eq_false _ ▸ hr)]

/-- The table while HDR goes on. -/
theorem noTimeout_of_hdr_stays {s : State} {c : CycleIn} (hs : s.state = .hdr) (h : tableNext s c = .hdr)
    (hv : c.rxValid = false) : c.rxTimeout = false := by
  obtain ⟨hup, hr⟩ := linked_iff.mp (linked_of_tableNext (by rw [h]; nofun))
  by_contra hto
  simp [tableNext, hup, hr, hs, hv, hto] at h

/-- With the byte source's duty a header ends. -/
theorem header_ends {env : Nat → CycleIn} {s : State} (hinv : Invariant s) (hduty : SourceDuty s env) :
    ¬Waits env s .hdr := by
  intro hwaits
  have hcycle : ∀ n, (stateAt env s (n + 1)).hdrIdx.val =
      (stateAt env s n).hdrIdx.val + if (env n).rxValid = true then 1 else 0 := fun n =>
    hdrIdx_of_stays (stateAt_result env s n) (hwaits n) (hwaits (n + 1))
  have hmore : ∀ n, (stateAt env s n).hdrIdx.val < 6 := fun n => (stateAt env s n).hdrIdx.isLt
  refine not_descends_of_recurs hduty (μ := fun u => 6 - u.hdrIdx.val) (fun n => ?_) fun n hevent => ?_
  · have hstep := hcycle n
    omega
  · have htable := (stateAt_table env hinv n).symm.trans (hwaits (n + 1))
    have hvalid : (env n).rxValid = true := by
      rcases hevent with hno | hvalid | hto | hdown
      · exact absurd (.inl (hwaits n)) hno
      · exact hvalid
      · by_contra hv
        have hquiet := noTimeout_of_hdr_stays (hwaits n) htable (Bool.eq_false_iff.mpr hv)
        exact nomatch hto.symm.trans hquiet
      · obtain ⟨hup, -⟩ := linked_iff.mp (linked_of_tableNext (by rw [htable]; nofun))
        exact nomatch hup.symm.trans hdown
    have hstep := hcycle n
    rw [if_pos hvalid] at hstep
    have hlt := hmore (n + 1)
    omega

/-! #### READING -/

theorem tableNext_reading {s : State} {c : CycleIn} (hs : s.state = .reading) (hc : linked c = true) :
    tableNext s c =
      if c.rxValid = true ∧ s.xferCount + 1 = s.payloadSize then .idle
      else if c.rxTimeout = true then .idle else .reading := by
  obtain ⟨hup, hr⟩ := linked_iff.mp hc
  simp only [tableNext, hup, hr, hs, Bool.false_eq_true, Bool.true_eq_false, if_false]

/-- READING leads to IDLE alone, and ends with a time-out. -/
theorem tableNext_reading_cases {s : State} (c : CycleIn) (hs : s.state = .reading) :
    tableNext s c = .idle ∨ tableNext s c = .reading ∧ linked c = true ∧ c.rxTimeout = false := by
  by_cases hidle : tableNext s c = .idle
  · exact .inl hidle
  have hc := linked_of_tableNext hidle
  refine .inr ?_
  rw [tableNext_reading hs hc] at hidle ⊢
  split at hidle
  · exact absurd rfl hidle
  split at hidle
  · exact absurd rfl hidle
  · next hmore hto =>
    rw [if_neg hmore, if_neg hto]
    exact ⟨rfl, hc, Bool.eq_false_iff.mpr hto⟩

/-- A cycle that stays in READING. -/
theorem xferCount_of_reading_stays {s t : State} {c : CycleIn} (hinv : Invariant s) (hs : s.state = .reading)
    (ht : step (s.fed [c]) = .next t) (hc : linked c = true) (hto : c.rxTimeout = false) :
    t.xferCount = s.xferCount + if c.rxValid = true then 1 else 0 := by
  have hf : s.reqFmt ≠ 0 := by
    rcases hinv.format_legal (by rw [hs]; rfl) with h | h | h <;> rw [h] <;> decide
  have hstep := step_reading [] hs hf hc
  rw [timeOut_of_none hto] at hstep
  rw [← Host.Outcome.next.inj (hstep.symm.trans ht)]
  exact (received_effect c [] hs).2.1

/-- With the byte source's duty a READING phase ends. -/
theorem reading_ends {env : Nat → CycleIn} {s : State} (hinv : Invariant s) (hduty : SourceDuty s env) :
    ¬Waits env s .reading := by
  intro hwaits
  have hquiet : ∀ n, linked (env n) = true ∧ (env n).rxTimeout = false := fun n => by
    rcases tableNext_reading_cases (env n) (hwaits n) with hidle | ⟨-, hquiet⟩
    · exact nomatch (hwaits (n + 1)).symm.trans ((stateAt_table env hinv n).trans hidle)
    · exact hquiet
  have hopen : ∀ n, (stateAt env s n).xferCount.toNat < (stateAt env s n).payloadSize.toNat := fun n =>
    (stateAt_invariant env hinv n).transfer_open (by rw [hwaits n]; rfl)
  have hcycle : ∀ n, (stateAt env s (n + 1)).xferCount =
      (stateAt env s n).xferCount + if (env n).rxValid = true then 1 else 0 := fun n =>
    xferCount_of_reading_stays (stateAt_invariant env hinv n) (hwaits n) (step_eq_nextState _) (hquiet n).1 (hquiet n).2
  have hpayload : ∀ n, (stateAt env s (n + 1)).payloadSize = (stateAt env s n).payloadSize := fun n =>
    payloadSize_of_step (env n) (linked_iff.mp (hquiet n).1).2 (by rw [hwaits n]; nofun) (step_eq_nextState _)
  refine not_descends_of_recurs hduty (μ := fun u => u.payloadSize.toNat - u.xferCount.toNat) (fun n => ?_)
    fun n hevent => ?_
  · have hlt := hopen n
    rw [hpayload n, hcycle n]
    split
    · bv_omega
    · bv_omega
  · have hvalid : (env n).rxValid = true := by
      rcases hevent with hno | hvalid | hto | hdown
      · exact absurd (.inr (hwaits n)) hno
      · exact hvalid
      · exact nomatch hto.symm.trans (hquiet n).2
      · exact nomatch (linked_iff.mp (hquiet n).1).1.symm.trans hdown
    have hlt := hopen n
    have hnext := hopen (n + 1)
    rw [hpayload n, hcycle n, if_pos hvalid] at hnext ⊢
    bv_omega

/-! #### WRITING -/

theorem tableNext_writing {s : State} {c : CycleIn} (hs : s.state = .writing) (hc : linked c = true) :
    tableNext s c =
      if s.encRdy = true ∧ c.txReady = true ∧ s.xferCount + 1 = s.payloadSize then .idle
      else if c.txFail = true then .idle else .writing := by
  obtain ⟨hup, hr⟩ := linked_iff.mp hc
  simp only [tableNext, hup, hr, hs, Bool.false_eq_true, Bool.true_eq_false, if_false]

/-- WRITING leads to IDLE alone, and ends with a failure. -/
theorem tableNext_writing_cases {s : State} (c : CycleIn) (hs : s.state = .writing) :
    tableNext s c = .idle ∨ tableNext s c = .writing ∧ linked c = true ∧ c.txFail = false := by
  by_cases hidle : tableNext s c = .idle
  · exact .inl hidle
  have hc := linked_of_tableNext hidle
  refine .inr ?_
  rw [tableNext_writing hs hc] at hidle ⊢
  split at hidle
  · exact absurd rfl hidle
  split at hidle
  · exact absurd rfl hidle
  · next hmore hfail =>
    rw [if_neg hmore, if_neg hfail]
    exact ⟨rfl, hc, Bool.eq_false_iff.mpr hfail⟩

/-- The bytes still to send, and the wait for the next one where it is not ready. -/
def toSend (s : State) : Nat := 2 * (s.payloadSize.toNat - s.xferCount.toNat) + if s.encRdy = true then 0 else 1

/-- A cycle that stays in WRITING sends the byte that is ready and taken, waits with it, or draws. -/
theorem toSend_of_stays {s t : State} {c : CycleIn} {r : List CycleIn} (ht : CycleResult s c r t)
    (hs : s.state = .writing) (hstays : t.state = .writing) (hpayload : t.payloadSize = s.payloadSize)
    (hopen : s.xferCount.toNat < s.payloadSize.toNat) :
    toSend t ≤ toSend s ∧ ((s.encRdy = true ∧ c.txReady = true) ∨ (s.encRdy = false ∧ c.encDraw = true) →
      toSend t < toSend s) := by
  obtain ⟨u, hu, rfl⟩ := endsWriting_of_cycleResult ht hstays
  obtain ⟨-, hready, hcount⟩ := hostAccess_sampled_encoder s.state c s r
  have hu_writing : (withPorts c (outputs s c) u).state = .writing := by
    rwa [commit_state, encoderPhase_state] at hstays
  have hrdy : (commit (encoderPhase (withPorts c (outputs s c) u))).encRdy = if u.encRdy = true then true else c.encDraw :=
    encoderPhase_encRdy hu_writing
  have hkept : (commit (encoderPhase (withPorts c (outputs s c) u))).xferCount = u.xferCount := by
    obtain ⟨_, e⟩ := encoderPhase_eq_encRdy (withPorts c (outputs s c) u)
    rw [e]
    rfl
  unfold toSend
  rw [hpayload, hkept, hrdy]
  cases hu with
  | starts hs' => exact nomatch hs.symm.trans hs'
  | holds _ hno =>
    have hcount : (accessed s c r).xferCount = s.xferCount := hcount
    have hready : (accessed s c r).encRdy = s.encRdy := hready
    rw [hcount, hready]
    cases hr : s.encRdy with
    | true => exact ⟨le_rfl, fun h => h.elim (fun h => absurd ⟨hr, h.2⟩ hno) fun h => nomatch h.1⟩
    | false => cases c.encDraw <;> simp
  | sends _ hsent =>
    have hcount : (withSent (accessed s c r)).xferCount = s.xferCount + 1 := congrArg (· + 1) hcount
    have hready : (withSent (accessed s c r)).encRdy = false := rfl
    have hsucc : (s.xferCount + 1).toNat = s.xferCount.toNat + 1 := by bv_omega
    have hdraw : (if c.encDraw = true then 0 else 1) ≤ 1 := by split <;> decide
    rw [hcount, hready, hsent.1, hsucc, if_pos rfl, if_neg Bool.false_ne_true]
    exact ⟨by omega, fun _ => by omega⟩

/-- With encoder fairness and the byte sink's duty a WRITING phase ends: the encoder gets its byte ready, or has it, and
keeps it until the sink answers. -/
theorem writing_ends {env : Nat → CycleIn} {s : State} (hinv : Invariant s) (hfair : EncoderFair s env)
    (hduty : SinkDuty s env) : ¬Waits env s .writing := by
  intro hwaits
  have hquiet : ∀ n, linked (env n) = true ∧ (env n).txFail = false := fun n => by
    rcases tableNext_writing_cases (env n) (hwaits n) with hidle | ⟨-, hquiet⟩
    · exact nomatch (hwaits (n + 1)).symm.trans ((stateAt_table env hinv n).trans hidle)
    · exact hquiet
  have hstep : ∀ n, toSend (stateAt env s (n + 1)) ≤ toSend (stateAt env s n) ∧
      (((stateAt env s n).encRdy = true ∧ (env n).txReady = true) ∨
        ((stateAt env s n).encRdy = false ∧ (env n).encDraw = true) →
        toSend (stateAt env s (n + 1)) < toSend (stateAt env s n)) := fun n =>
    toSend_of_stays (stateAt_result env s n) (hwaits n) (hwaits (n + 1))
      (payloadSize_of_step (env n) (linked_iff.mp (hquiet n).1).2 (by rw [hwaits n]; nofun) (step_eq_nextState _))
      ((stateAt_invariant env hinv n).transfer_open (by rw [hwaits n]; rfl))
  have hdown : Antitone fun n => toSend (stateAt env s n) := antitone_nat_of_succ_le fun n => (hstep n).1
  refine not_descends (μ := fun n => toSend (stateAt env s n)) fun n => ?_
  obtain ⟨k, hnk, hfair⟩ := recurs_stateAt hfair n
  obtain ⟨m, hkm, hsink⟩ := recurs_stateAt hduty k
  have hleft : toSend (stateAt env s k) ≤ toSend (stateAt env s n) := hdown hnk
  have hright : toSend (stateAt env s m) ≤ toSend (stateAt env s k) := hdown hkm
  cases hk : (stateAt env s k).encRdy with
  | false =>
    have hdraw : (env k).encDraw = true := hfair.resolve_left fun hno => hno ⟨hwaits k, hk⟩
    have hlt := (hstep k).2 (.inr ⟨hk, hdraw⟩)
    exact ⟨k + 1, by omega⟩
  | true =>
    by_cases hsame : toSend (stateAt env s m) = toSend (stateAt env s k)
    · have hm : (stateAt env s m).encRdy = true := by
        by_contra hno
        unfold toSend at hsame
        rw [hk, if_pos rfl, if_neg hno] at hsame
        omega
      have hready : (env m).txReady = true := by
        rcases hsink with hno | hready | hfail
        · obtain ⟨hup, hr⟩ := linked_iff.mp (hquiet m).1
          exact nomatch hno.symm.trans (txValid_iff.mpr ⟨hr, hup, hwaits m, hm⟩)
        · exact hready
        · exact nomatch hfail.symm.trans (hquiet m).2
      have hlt := (hstep m).2 (.inl ⟨hm, hready⟩)
      exact ⟨m + 1, by omega⟩
    · exact ⟨m, by omega⟩

/-- A phase that leads to IDLE alone, and does not go on for ever, ends there. -/
theorem ends_in_idle {env : Nat → CycleIn} {s : State} {e : EngineState} (hinv : Invariant s) (hs : s.state = e)
    (hends : ¬Waits env s e) (htable : ∀ (u : State) (c : CycleIn), u.state = e → tableNext u c = .idle ∨ tableNext u c = e) :
    ∃ n t, runUnder env n s = .next t ∧ t.state = .idle := by
  obtain ⟨n, hn, hleft⟩ := exists_end_of_not_waits hs hends
  refine ⟨n + 1, _, runUnder_eq_stateAt env s (n + 1), ?_⟩
  rw [stateAt_table env hinv n] at hleft ⊢
  exact (htable _ _ hn).resolve_right hleft

/-- Settles O57: no wait goes on for ever, for what is left of it goes down again and again; READING and WRITING lead to
IDLE alone. -/
theorem waitsEnd : Obligations.WaitsEnd := by
  unfold Obligations.WaitsEnd
  intro s env hinv
  refine ⟨fun hs hduty => ?_, fun hs hduty => ?_, fun hs hfair hduty => ?_⟩
  · obtain ⟨n, -, hleft⟩ := exists_end_of_not_waits hs (header_ends hinv hduty)
    exact ⟨n + 1, _, runUnder_eq_stateAt env s (n + 1), hleft⟩
  · exact ends_in_idle hinv hs (reading_ends hinv hduty) fun u c hu => (tableNext_reading_cases c hu).imp_right And.left
  · exact ends_in_idle hinv hs (writing_ends hinv hfair hduty) fun u c hu =>
      (tableNext_writing_cases c hu).imp_right And.left

end Sys2Proof.Proofs
